-- ==== Sys2Proof/Word.lean ====
section
/-! DEFINITION. The plain types the commands and the state are written in: bytes, the numbered things of the
exchange (spec/00_scope.md, Naming conventions) and tables of a fixed length with their one read and one write. -/

namespace Sys2Proof

/-- A byte of a link frame. -/
abbrev Byte := BitVec 8

/-- A riser, A to D as 0 to 3 (the code of spec/13). -/
abbrev Riser := Fin 4

/-- An entrance, E0 to E5. -/
abbrev Entrance := Fin 6

/-- A call record, C0 to C23. -/
abbrev CallId := Fin 24

/-- A console call line: line 1 is 0 and line 2 is 1. -/
abbrev LineNo := Fin 2

/-- A talk slot of a riser, slot 0 to slot 3. -/
abbrev Slot := Fin 4

/-- A node of a riser: node address 1 is 0 and node address 60 is 59. -/
abbrev Node := Fin 60

/-- A directory index, 0 to 249. -/
abbrev DirIndex := Fin 250

/-- A handset: its riser and its node, as in B17. -/
structure Handset where
  riser : Riser
  node : Node
  deriving DecidableEq, Repr

/-- A link of the exchange: one of the six entrance links or the desk link (spec/07). -/
inductive Link where
  | entrance (e : Entrance)
  | desk
  deriving DecidableEq, Repr

/-- The table `v` with entry `i` written to `x`. -/
def put {α : Type} {n : Nat} (v : Vector α n) (i : Fin n) (x : α) : Vector α n :=
  v.set i.val x i.isLt

/-- The table `v` with entry `i` changed by `f`. -/
def upd {α : Type} {n : Nat} (v : Vector α n) (i : Fin n) (f : α → α) : Vector α n :=
  put v i (f v[i])

/-- Every entry of the table changed by `f`, which is also told the entry's number. -/
def updAll {α : Type} {n : Nat} (v : Vector α n) (f : Fin n → α → α) : Vector α n :=
  Vector.ofFn fun i => f i v[i]

end Sys2Proof
end

