-- ==== Sys2Proof/Config.lean ====
section
/-! DEFINITION. What the spec leaves to the device or states no value for: constants without a body, so that
nothing can be proved of them (notes/assumptions/3.md and 4.md). -/

namespace Sys2Proof.Config

/-- The device's revision number, reported in the GENERAL section of QUERY-STATUS (R180). The spec gives no
number: a free value. -/
opaque revision : Byte

/-- The code that stands for the supply mode in QUERY-STATUS and STATUS before the first supply mode is set. The
spec gives codes to FULL, RESERVE and DEPLETED alone (spec/13, 13.5): a free value. -/
opaque unsetModeCode : Byte

end Sys2Proof.Config
end

