-- ==== Sys2Proof/Syntax.lean ====
section
/-! DEFINITION. The commands of the exchange: one constructor of `Instr` for each row of spec/opcode_table.json,
with the values the command brings from outside (a signal's body, a request's parameters, a reply's contents, a
sample, a conversion's code). The operands are as they stand on the wire where the exchange itself judges them:
a byte that names a riser may name none. -/

namespace Sys2Proof

/-- Why a reply window of a riser bus gave no valid reply (R113): nothing arrived, a word had bad parity, or the
words were good but the reply was not valid. -/
inductive WindowFault where
  | noReply
  | badParity
  | notValid
  deriving DecidableEq, Repr

/-- What a survey probe drew (R128). -/
inductive ProbeResult where
  | replied
  | failed (f : WindowFault)
  deriving DecidableEq, Repr

/-- The two index bytes of a table request (spec/13, 13.3): riser and node address for the handset table, and
otherwise 0 and the entry number. -/
structure EntryIndex where
  hi : Byte
  lo : Byte
  deriving DecidableEq, Repr

/-- A directory entry as WRITE-ENTRY supplies it (spec/13, 13.3). -/
structure DirectoryWrite where
  used : Byte
  code : BitVec 16
  riser : Byte
  nodes : List Byte
  steps : List Byte
  privacy : Byte
  label : List Byte
  deriving DecidableEq, Repr

/-- A handset table entry as WRITE-ENTRY supplies it. -/
structure HandsetWrite where
  enrolled : Byte
  load : Byte
  deriving DecidableEq, Repr

/-- A class table entry as WRITE-ENTRY supplies it. -/
structure ClassWrite where
  base : Byte
  aging : Byte
  queue : Byte
  cycles : Byte
  talk : BitVec 16
  profile : Byte
  flags : Byte
  deriving DecidableEq, Repr

/-- A cadence profile as WRITE-ENTRY supplies it. -/
structure ProfileWrite where
  on1 : Byte
  off1 : Byte
  on2 : Byte
  off2 : Byte
  deriving DecidableEq, Repr

/-- A door table entry as WRITE-ENTRY supplies it. -/
structure DoorWrite where
  delay : Byte
  width : Byte
  grace : Byte
  heldLimit : BitVec 16
  forced : Byte
  polarity : Byte
  sense : Byte
  deriving DecidableEq, Repr

/-- A riser table entry as WRITE-ENTRY supplies it. -/
structure RiserWrite where
  enabled : Byte
  budget : BitVec 16
  missed : Byte
  short : BitVec 16
  sag : BitVec 16
  deriving DecidableEq, Repr

/-- The supply record as WRITE-ENTRY supplies it. -/
structure SupplyWrite where
  fullFloor : Byte
  percent : Byte
  slots : Byte
  floor : Byte
  pause : BitVec 16
  depleted : BitVec 16
  deriving DecidableEq, Repr

/-- The commands, in the order of spec/opcode_table.json. A management request carries the link it came by and its
tag (R174, R176); a handset's reply carries the riser it arrived on and the node its address word names (R111). -/
inductive Instr where
  /-- COLD_START (R190); the levels of the six door contact inputs at the first sample, high is true. -/
  | coldStart (contacts : Vector Bool 6)
  /-- FIRST_SUPPLY_MODE (R173). -/
  | firstSupplyMode
  /-- STARTUP_SWITCH_ON (R191). -/
  | startupSwitchOn
  /-- RESTART (R192). -/
  | restart (src : Link) (tag : Byte)
  /-- FRAME_DISCARDED (R136). -/
  | frameDiscarded (l : Link)
  /-- FRAME_ABANDONED (R136). -/
  | frameAbandoned (l : Link)
  /-- STATUS_RECEIVED (R137): a valid STATUS, REPLY or NOTICE frame. -/
  | statusReceived (l : Link)
  /-- SIGNAL_DISREGARDED (R137). -/
  | signalDisregarded (l : Link)
  /-- LIVENESS_TIMER_EXPIRY (R138). -/
  | livenessTimerExpiry (l : Link)
  /-- STATUS_DUE (R141). -/
  | statusDue (l : Link)
  /-- FRAME_SENT (R140). -/
  | frameSent (l : Link)
  /-- NOTICE_TAKEN (R183). -/
  | noticeTaken
  /-- CALL (R142). -/
  | call (e : Entrance) (code : BitVec 16)
  /-- CALL_DESK (R142). -/
  | callDesk (e : Entrance)
  /-- CANCEL (R143). -/
  | cancel (e : Entrance)
  /-- DESK_CALL (R104). -/
  | deskCall (code : BitVec 16)
  /-- DESK_ANSWER (R100); FFh names no call. -/
  | deskAnswer (rec : Byte)
  /-- DESK_HOLD (R105). -/
  | deskHold (line : Byte)
  /-- DESK_RESUME (R106). -/
  | deskResume (line : Byte)
  /-- DESK_END (R107). -/
  | deskEnd (line : Byte)
  /-- DESK_RELEASE (R108). -/
  | deskRelease (entrance : Byte)
  /-- DESK_OPEN, the console's signal (R93). -/
  | deskOpen
  /-- DESK_CLOSE, the console's signal (R94). -/
  | deskClose
  /-- MANAGE_EMPTY_BODY (R176). -/
  | manageEmptyBody (l : Link)
  /-- MANAGE_UNKNOWN_REQUEST (R176): the request's code is unknown or its body has the wrong length; `badTable`
  when instead it is a table request of agreeing length that names none of the seven tables (check 3). -/
  | manageUnknownRequest (src : Link) (tag : Byte) (code : Byte) (badTable : Bool)
  /-- READ_ENTRY (R47). -/
  | readEntry (src : Link) (tag : Byte) (table : Byte) (index : EntryIndex)
  /-- WRITE_ENTRY_DIRECTORY (R35). -/
  | writeEntryDirectory (src : Link) (tag : Byte) (index : EntryIndex) (w : DirectoryWrite)
  /-- CLEAR_ENTRY_DIRECTORY (R38). -/
  | clearEntryDirectory (src : Link) (tag : Byte) (index : EntryIndex)
  /-- WRITE_ENTRY_HANDSET (R41). -/
  | writeEntryHandset (src : Link) (tag : Byte) (index : EntryIndex) (w : HandsetWrite)
  /-- CLEAR_ENTRY_HANDSET (R41). -/
  | clearEntryHandset (src : Link) (tag : Byte) (index : EntryIndex)
  /-- WRITE_ENTRY_CLASS (R42). -/
  | writeEntryClass (src : Link) (tag : Byte) (index : EntryIndex) (w : ClassWrite)
  /-- CLEAR_ENTRY_CLASS (R42). -/
  | clearEntryClass (src : Link) (tag : Byte) (index : EntryIndex)
  /-- WRITE_ENTRY_PROFILE (R45). -/
  | writeEntryProfile (src : Link) (tag : Byte) (index : EntryIndex) (w : ProfileWrite)
  /-- CLEAR_ENTRY_PROFILE (R45). -/
  | clearEntryProfile (src : Link) (tag : Byte) (index : EntryIndex)
  /-- WRITE_ENTRY_DOOR (R155). -/
  | writeEntryDoor (src : Link) (tag : Byte) (index : EntryIndex) (w : DoorWrite)
  /-- CLEAR_ENTRY_DOOR (R155). -/
  | clearEntryDoor (src : Link) (tag : Byte) (index : EntryIndex)
  /-- WRITE_ENTRY_RISER (R167). -/
  | writeEntryRiser (src : Link) (tag : Byte) (index : EntryIndex) (w : RiserWrite)
  /-- CLEAR_ENTRY_RISER (R167). -/
  | clearEntryRiser (src : Link) (tag : Byte) (index : EntryIndex)
  /-- WRITE_ENTRY_SUPPLY (R172). -/
  | writeEntrySupply (src : Link) (tag : Byte) (index : EntryIndex) (w : SupplyWrite)
  /-- CLEAR_ENTRY_SUPPLY (R172). -/
  | clearEntrySupply (src : Link) (tag : Byte) (index : EntryIndex)
  /-- QUERY_CALLS (R179). -/
  | queryCalls (src : Link) (tag : Byte) (start : Byte)
  /-- QUERY_STATUS (R180): a section code and a riser or entrance byte. -/
  | queryStatus (src : Link) (tag : Byte) (section_ : Byte) (which : Byte)
  /-- CLEAR_CONDITION (R182). -/
  | clearCondition (src : Link) (tag : Byte) (cond : Byte) (inst : Byte)
  /-- SET_MASK (R184). -/
  | setMask (src : Link) (tag : Byte) (mask : BitVec 16)
  /-- DOOR_RELEASE (R178). -/
  | doorRelease (src : Link) (tag : Byte) (entrance : Byte)
  /-- CALL_CLEAR (R178). -/
  | callClear (src : Link) (tag : Byte) (rec : Byte)
  /-- RISER_FEED (R166): 1 for on, 0 for off. -/
  | riserFeed (src : Link) (tag : Byte) (riser : Byte) (onOff : Byte)
  /-- RISER_SURVEY (R127). -/
  | riserSurvey (src : Link) (tag : Byte) (riser : Byte)
  /-- SERVICE_WINDOW (R174). -/
  | serviceWindow (src : Link) (tag : Byte) (entrance : Byte) (minutes : Byte)
  /-- MANAGE_DESK_OPEN (R109). -/
  | manageDeskOpen (src : Link) (tag : Byte)
  /-- MANAGE_DESK_CLOSE (R109). -/
  | manageDeskClose (src : Link) (tag : Byte)
  /-- SAVE (R187). -/
  | save (src : Link) (tag : Byte)
  /-- SAVE_ERASE_DONE (R188). -/
  | saveEraseDone
  /-- SAVE_PAGE_WRITTEN (R188); whether the page read back compares equal. -/
  | savePageWritten (equal : Bool)
  /-- SAVE_MARK_WRITTEN (R188); whether the mark read back compares equal. -/
  | saveMarkWritten (equal : Bool)
  /-- SERVICE_WINDOW_EXPIRY (R175). -/
  | serviceWindowExpiry (e : Entrance)
  /-- POLL_PAUSE_END (R119). -/
  | pollPauseEnd (r : Riser)
  /-- NONE (R120): the reply NONE. -/
  | noneReply (r : Riser) (n : Node)
  /-- HOOK_OFF (R5). -/
  | hookOff (r : Riser) (n : Node)
  /-- HOOK_ON (R6). -/
  | hookOn (r : Riser) (n : Node)
  /-- KEY_DOOR (R7). -/
  | keyDoor (r : Riser) (n : Node)
  /-- KEY_DESK (R8). -/
  | keyDesk (r : Riser) (n : Node)
  /-- DIAL (R8). -/
  | dial (r : Riser) (n : Node) (code : BitVec 16)
  /-- KEY_URGENT (R9). -/
  | keyUrgent (r : Riser) (n : Node)
  /-- KEY_PRIVACY (R10). -/
  | keyPrivacy (r : Riser) (n : Node)
  /-- MISSED_POLL (R121). -/
  | missedPoll (r : Riser) (f : WindowFault)
  /-- ACK (R123), with the message code it carries. -/
  | ack (r : Riser) (n : Node) (code : Byte)
  /-- COMMAND_NO_ACK (R123). -/
  | commandNoAck (r : Riser) (f : WindowFault)
  /-- SURVEY_PROBE (R128). -/
  | surveyProbe (r : Riser) (p : ProbeResult)
  /-- CADENCE_SEGMENT_END (R77). -/
  | cadenceSegmentEnd (c : CallId)
  /-- TALK_WARNING (R21). -/
  | talkWarning (c : CallId)
  /-- TALK_LIMIT (R21). -/
  | talkLimit (c : CallId)
  /-- QUEUE_LIMIT (R59). -/
  | queueLimit (c : CallId)
  /-- DESK_QUEUE_LIMIT (R99). -/
  | deskQueueLimit (c : CallId)
  /-- DELAY_END (R147). -/
  | delayEnd (e : Entrance)
  /-- DRIVE_END (R147). -/
  | driveEnd (e : Entrance)
  /-- GRACE_EXPIRY (R147). -/
  | graceExpiry (e : Entrance)
  /-- DOOR_OPENING (R151). -/
  | doorOpening (e : Entrance)
  /-- DOOR_CLOSING (R153). -/
  | doorClosing (e : Entrance)
  /-- HELD_TIMER_EXPIRY (R152). -/
  | heldTimerExpiry (e : Entrance)
  /-- FEED_VOLTAGE_CONVERSION (R165), with the conversion's raw code. -/
  | feedVoltageConversion (r : Riser) (c : BitVec 10)
  /-- FEED_CURRENT_CONVERSION (R162), with the conversion's raw code. -/
  | feedCurrentConversion (r : Riser) (c : BitVec 10)
  /-- BATTERY_CONVERSION (R171), with the conversion's raw code. -/
  | batteryConversion (c : BitVec 10)
  /-- DEBOUNCED_MAINS_CHANGE (R171): the new debounced mains, true for PRESENT. -/
  | debouncedMainsChange (present : Bool)
  /-- SETTLE_END (R161). -/
  | settleEnd (r : Riser)
  /-- RETRY_EXPIRY (R164). -/
  | retryExpiry (r : Riser)
  /-- STABLE_EXPIRY (R164). -/
  | stableExpiry (r : Riser)
  /-- DOOR_CONTACT_SAMPLE (R150), with the input's level, high is true. -/
  | doorContactSample (e : Entrance) (high : Bool)
  /-- MAINS_SENSE_SAMPLE (R170), with the sample, true for PRESENT. -/
  | mainsSenseSample (present : Bool)
  deriving DecidableEq, Repr

end Sys2Proof
end

