-- ==== Sys2Proof/Machine/State.lean ====
section
/-! DEFINITION. The state of the exchange as plain data, one structure for each block of spec/00_scope.md (Block
overview), and `State.reset`, the state a cold start leaves when the settings store is not valid.

Timers are kept in milliseconds: a timer that is stopped is `none`, a running one holds the milliseconds left.
Elapsed counts are kept in milliseconds too; the tenths, seconds, ring units and minutes the spec speaks of are
read from them (Machine/Flags.lean). notes/assumptions/1.md and 2.md say how time is modelled. -/

namespace Sys2Proof.Machine

open Sys2Proof

/-! ### Names -/

/-- Call classes (R11), in the order of their codes. -/
inductive CallClass where
  | visitor | panelDesk | neighbour | deskOut | deskIn | urgent
  deriving DecidableEq, Repr

/-- States of a live call (spec/01, 1.2). A FREE record holds no call at all. -/
inductive CallState where
  | waiting | ringing | talk | held | ending
  deriving DecidableEq, Repr

/-- Line states of a handset (R3). -/
inductive LineState where
  | idle | offhook | ringing | connected
  deriving DecidableEq, Repr

/-- Where a call comes from (R11). -/
inductive Origin where
  | entrance (e : Entrance)
  | handset (h : Handset)
  | line (l : LineNo)
  deriving DecidableEq, Repr

/-- Where a call goes: an apartment, the requested code until check 5 finds its entry (R13), or DESK. -/
inductive Target where
  | apartment (i : DirIndex)
  | code (c : BitVec 16)
  | desk
  deriving DecidableEq, Repr

/-- A step of a forward chain (spec/02, 2.1). -/
inductive Step where
  | apartment (i : DirIndex)
  | desk
  deriving DecidableEq, Repr

/-- What a WAITING call waits for. -/
inductive WaitKind where
  | riser (r : Riser)
  | desk
  deriving DecidableEq, Repr

/-- End causes (R26), in the order of their codes. -/
inductive Cause where
  | completed | cancelled | noAnswer | timeLimit | busy | tableFull | linesFull | classOff | floor | noSuch
  | lineFault | isPrivate | deskClosed | deskBusy | noPath | preempted | linkLost | cleared | restart
  deriving DecidableEq, Repr

/-- Segments of a cadence cycle (R76). -/
inductive Segment where
  | on1 | off1 | on2 | off2
  deriving DecidableEq, Repr

/-- Feed states, with the hold cause of OFF-HELD (spec/09, 9.2). -/
inductive HoldCause where
  | start | fault | order
  deriving DecidableEq, Repr

/-- Feed states (spec/09, 9.2). -/
inductive FeedState where
  | onNormal
  | onSag
  | offRetry
  | offHeld (cause : HoldCause)
  deriving DecidableEq, Repr

/-- Supply modes (spec/09, 9.3). -/
inductive Mode where
  | full | reserve | depleted
  deriving DecidableEq, Repr

/-- Presence of a node (R114). -/
inductive Presence where
  | absent | present | lost
  deriving DecidableEq, Repr

/-- Door states (spec/08). -/
inductive DoorState where
  | shut | openAuth | openHeld | openForced
  deriving DecidableEq, Repr

/-- Conditions, each with its instance where it has several (R181). -/
inductive Condition where
  | doorHeld (e : Entrance)
  | doorForced (e : Entrance)
  | feedHeld (r : Riser)
  | supplyDepleted
  | storeInvalid
  | urgentUnanswered
  deriving DecidableEq, Repr

/-- Reply codes (spec/13, 13.5). -/
inductive ReplyCode where
  | ok | clamped | badRequest | badTable | badIndex | badValue | duplicate | inUse | denied | storeBusy | busy | ignored
  deriving DecidableEq, Repr

/-- Reasons of REFUSE (spec/05, 5.3). -/
inductive Reason where
  | linesFull | tableFull | noCall | badLine | noSuch | deskClosed | ignored
  deriving DecidableEq, Repr

/-! ### Tables -/

/-- A used directory entry (spec/02, 2.1). A label of length 0 is an absent label. -/
structure Apartment where
  code : BitVec 16
  riser : Riser
  nodes : List Node
  chain : List Step
  hasPrivacy : Bool
  label : List Byte
  deriving DecidableEq, Repr

/-- A handset table entry (spec/02, 2.2); the load in mA. -/
structure HandsetEntry where
  enrolled : Bool
  load : Nat
  deriving DecidableEq, Repr

/-- A class table entry (spec/02, 2.3), and a call's latched copy of it (R43). -/
structure ClassParams where
  base : Nat
  aging : Nat
  queue : Nat
  cycles : Nat
  talk : Nat
  profile : Fin 4
  preempt : Bool
  hasPrivacy : Bool
  forward : Bool
  deriving DecidableEq, Repr

/-- A cadence profile (spec/02, 2.4), in ring units. -/
structure Profile where
  on1 : Nat
  off1 : Nat
  on2 : Nat
  off2 : Nat
  deriving DecidableEq, Repr

/-- A door table entry (spec/08): tenths, tenths, tenths, seconds, and the named values as true for ON,
UNLOCK-ON-DRIVE and OPEN-WHEN-HIGH. -/
structure DoorEntry where
  delay : Nat
  width : Nat
  grace : Nat
  heldLimit : Nat
  forced : Bool
  unlockOnDrive : Bool
  openWhenHigh : Bool
  deriving DecidableEq, Repr

/-- A riser table entry (spec/09, 9.2): mA, polls, mA, mV. -/
structure RiserEntry where
  enabled : Bool
  budget : Nat
  missed : Nat
  short : Nat
  sag : Nat
  deriving DecidableEq, Repr

/-- The supply record (spec/09, 9.3). -/
structure SupplyRecord where
  fullFloor : Nat
  percent : Nat
  slots : Nat
  floor : Nat
  pause : Nat
  depleted : Nat
  deriving DecidableEq, Repr

/-- Default handset table entry (R41, R48). -/
def HandsetEntry.default : HandsetEntry := { enrolled := false, load := 30 }

/-- Default class table (spec/02, 2.3), VISITOR first. -/
def ClassParams.defaults : Vector ClassParams 6 :=
  #v[{ base := 2, aging := 10, queue := 60, cycles := 10, talk := 120, profile := 0, preempt := false, hasPrivacy := true, forward := true },
     { base := 3, aging := 10, queue := 90, cycles := 10, talk := 180, profile := 0, preempt := false, hasPrivacy := false, forward := false },
     { base := 1, aging := 15, queue := 30, cycles := 8, talk := 300, profile := 1, preempt := false, hasPrivacy := true, forward := false },
     { base := 4, aging := 0, queue := 30, cycles := 12, talk := 600, profile := 2, preempt := false, hasPrivacy := false, forward := false },
     { base := 3, aging := 10, queue := 120, cycles := 10, talk := 300, profile := 0, preempt := false, hasPrivacy := false, forward := false },
     { base := 7, aging := 0, queue := 120, cycles := 10, talk := 600, profile := 0, preempt := true, hasPrivacy := false, forward := false }]

/-- Default cadence profiles (spec/02, 2.4). -/
def Profile.defaults : Vector Profile 4 :=
  #v[{ on1 := 8, off1 := 4, on2 := 8, off2 := 20 }, { on1 := 20, off1 := 0, on2 := 0, off2 := 20 },
     { on1 := 4, off1 := 2, on2 := 4, off2 := 30 }, { on1 := 10, off1 := 10, on2 := 10, off2 := 10 }]

/-- Default door table entry (spec/08). -/
def DoorEntry.default : DoorEntry :=
  { delay := 0, width := 30, grace := 20, heldLimit := 60, forced := true, unlockOnDrive := true, openWhenHigh := true }

/-- Default riser table entry (spec/09, 9.2). -/
def RiserEntry.default : RiserEntry := { enabled := true, budget := 120, missed := 3, short := 900, sag := 20000 }

/-- Default supply record (spec/09, 9.3). -/
def SupplyRecord.default : SupplyRecord :=
  { fullFloor := 0, percent := 50, slots := 2, floor := 1, pause := 100, depleted := 10800 }

/-! ### Call controller -/

/-- A ring set member (spec/01, 1.1; spec/04). -/
structure Member where
  handset : Handset
  sounding : Bool
  load : Nat
  skipped : Nat
  deriving DecidableEq, Repr

/-- A live call: the fields of spec/01, 1.1. `waitMs` is the time since the wait start, `offerMs` the time since the
call's first offer until it is answered, `talkMs` the time spent in TALK and HELD; `segment` is the cadence segment
under way with its milliseconds left; `pendingClears` names the handsets whose CLEAR is still to be settled. -/
structure Call where
  state : CallState
  cls : CallClass
  params : ClassParams
  origin : Origin
  target : Target
  original : Option DirIndex
  forwardStep : Nat
  chainPos : Nat
  stamp : BitVec 16
  waitKind : Option WaitKind
  waitMs : Nat
  claim : Bool
  slots : List (Riser × Slot)
  ringSet : List Member
  segment : Option (Segment × Nat)
  cycles : Nat
  answering : Option Handset
  line : Option LineNo
  offerMs : Option Nat
  latency : Option Nat
  talkMs : Option Nat
  doorReleased : Bool
  skippedTotal : Nat
  cause : Option Cause
  pendingClears : List Handset
  deriving DecidableEq, Repr

/-- The call controller (spec/01): the call table (`none` is a FREE record, R1), the line states (R3), the arrival
stamp counter (R2) and the admission floor (R14). -/
structure CallControl where
  calls : Vector (Option Call) 24
  lines : Vector (Vector LineState 60) 4
  stamp : BitVec 16
  floor : Nat
  deriving DecidableEq, Repr

/-! ### Directory unit -/

/-- The directory unit (spec/02); `none` is an unused directory entry. -/
structure DirectoryUnit where
  entries : Vector (Option Apartment) 250
  handsets : Vector (Vector HandsetEntry 60) 4
  classes : Vector ClassParams 6
  profiles : Vector Profile 4
  deriving DecidableEq, Repr

/-! ### Slot arbiter -/

/-- A talk slot: its holder and its reservation (spec/03). -/
structure SlotCell where
  holder : Option CallId
  reserved : Option CallId
  deriving DecidableEq, Repr

/-- One riser's slots, grant order and wait list (R49, R55). -/
structure RiserSlots where
  cells : Vector SlotCell 4
  order : List Slot
  wait : List CallId
  deriving DecidableEq, Repr

/-- Audio endpoints of the crosspoint (R72). -/
inductive Endpoint where
  | lane (e : Entrance)
  | line (l : LineNo)
  | slot (r : Riser) (k : Slot)
  deriving DecidableEq, Repr

/-- A crosspoint connection for one call (R72). -/
structure Connection where
  a : Endpoint
  b : Endpoint
  call : CallId
  deriving DecidableEq, Repr

/-- The slot arbiter (spec/03). `due` lists grant events that have arisen and are yet to be taken (R60); it is the
model's own field and is empty between commands. -/
structure Arbiter where
  risers : Vector RiserSlots 4
  usable : Nat
  cross : List Connection
  due : List Riser
  deriving DecidableEq, Repr

/-! ### Ring scheduler -/

/-- A sounding handset with its call and admitted load (spec/04). -/
structure Sounding where
  node : Node
  call : CallId
  load : Nat
  deriving DecidableEq, Repr

/-- The ring scheduler (spec/04): per riser the sounding set, oldest first, and the ring percent last pushed (R81).
S and Beff are read from these (R80, R83). -/
structure RingScheduler where
  sounding : Vector (List Sounding) 4
  percent : Nat
  deriving DecidableEq, Repr

/-! ### Desk unit -/

/-- A console line (R96). -/
inductive ConsoleLine where
  | free
  | active (c : CallId)
  | held (c : CallId)
  deriving DecidableEq, Repr

/-- The desk unit (spec/05). -/
structure DeskUnit where
  isOpen : Bool
  lines : Vector ConsoleLine 2
  queue : List CallId
  deriving DecidableEq, Repr

/-! ### Riser controllers -/

/-- Ring indications (R88, R112). -/
inductive RingKind where
  | sound | silent | quiet
  deriving DecidableEq, Repr

/-- Tones (R112). -/
inductive Tone where
  | ringback | busy | wait | warn | door | reject
  deriving DecidableEq, Repr

/-- Indications for a handset (R112, R125). -/
inductive Indication where
  | ring (k : RingKind)
  | ringStop
  | tone (t : Tone)
  | display (o : Origin)
  deriving DecidableEq, Repr

/-- An entry of the indication queue. -/
structure IndicationEntry where
  node : Node
  content : Indication
  deriving DecidableEq, Repr

/-- An entry of the control queue (R124); a CLEAR carries the call whose pending clears it settles. -/
inductive Command where
  | slot (n : Node) (k : Slot)
  | clear (n : Node) (c : CallId)
  deriving DecidableEq, Repr

/-- Which kind the last poll was (R115, R118). -/
inductive LastPoll where
  | regular | extra
  deriving DecidableEq, Repr

/-- Which extra poll is next when both kinds apply (R118). -/
inductive Turn where
  | attention | survey
  deriving DecidableEq, Repr

/-- The use of the bus under way (R115): silent while the feed is OFF, idle when nothing is to be sent, waiting a poll
pause, or a message whose reply window is open. -/
inductive BusUse where
  | silent
  | idle
  | pause
  | regularPoll (n : Node)
  | attentionPoll (n : Node)
  | probe (n : Node)
  | control
  | indication
  deriving DecidableEq, Repr

/-- A RUNNING survey: the next node to probe, 60 when all are past, and the nodes that replied (R127). -/
structure Survey where
  next : Nat
  replied : List Node
  deriving DecidableEq, Repr

/-- A riser controller (spec/06). `controlTry` and `indicationTry` are the attempt number of the message in service at
the head of the queue, 0 when none is (R123). `useMs` is what is left of the present use of the bus, settled or not
(R111), or of the poll pause; `allClearMs` what is left of the all-node CLEAR of a warm restart (R135). -/
structure RiserControl where
  presence : Vector Presence 60
  missed : Vector Nat 60
  pointer : Option Node
  attention : List Node
  attentionPos : Option Node
  lastPoll : LastPoll
  turn : Turn
  control : List Command
  controlTry : Nat
  indications : List IndicationEntry
  indicationTry : Nat
  pause : Nat
  survey : Option Survey
  parityErrors : Nat
  wordErrors : Nat
  dropped : Nat
  use : BusUse
  useMs : Nat
  allClearMs : Nat
  deriving DecidableEq, Repr

/-! ### Notices and frames -/

/-- What a CALL-END notice carries (R30). -/
structure CallEnd where
  record : CallId
  cls : CallClass
  origin : Origin
  targetCode : BitVec 16
  targetDesk : Bool
  cause : Cause
  forwardStep : Nat
  party : Option Origin
  latency : Option Nat
  talk : Option Nat
  doorReleased : Bool
  skipped : Nat
  deriving DecidableEq, Repr

/-- What a STORE notice carries (R185). -/
inductive StoreOutcome where
  | done | failed | invalidAtStart
  deriving DecidableEq, Repr

/-- Notices (R185). -/
inductive Notice where
  | callEnd (x : CallEnd)
  | door (e : Entrance) (d : DoorState)
  | node (h : Handset) (lost : Bool)
  | feed (r : Riser) (f : FeedState) (retries : Nat)
  | supply (m : Mode)
  | survey (r : Riser) (replied : List Node) (incomplete : Bool)
  | store (o : StoreOutcome)
  | condition (c : Condition)
  | restart (cold : Bool)
  deriving DecidableEq, Repr

/-- PROGRESS states (spec/07, 7.4). -/
inductive Progress where
  | waiting
  | ringing (label : List Byte)
  | connected
  | warn
  | door
  | ended (c : Cause)
  deriving DecidableEq, Repr

/-- Signals the exchange sends (spec/13, 13.2). The line is absent on an entrance link. -/
inductive Signal where
  | progress (line : Option LineNo) (p : Progress)
  | offer (c : CallId) (cls : CallClass) (o : Origin) (level : Nat)
  | withdraw (c : CallId)
  | refuse (signal : Byte) (why : Reason)
  deriving DecidableEq, Repr

/-- A reply to a management request (R176): DENIED carries the tag and code alone, so it names no request. -/
structure Reply where
  tag : Byte
  code : ReplyCode
  request : Option Byte
  data : List Byte
  deriving DecidableEq, Repr

/-- Frames the exchange sends (R140). -/
inductive Frame where
  | signal (x : Signal)
  | reply (r : Reply)
  | notice (n : Notice) (lost : Bool)
  | status (body : List Byte)
  deriving DecidableEq, Repr

/-! ### Link units -/

/-- A link unit (spec/07). `received` is the part of a frame received so far, empty in HUNTING; `gap` is what is left of
the time in which its next byte must come (R136). -/
structure LinkUnit where
  up : Bool
  liveness : Option Nat
  received : List Byte
  gap : Option Nat
  sendList : List Frame
  sending : Option Frame
  statusMs : Nat
  sequence : BitVec 8
  frameErrors : Nat
  sendLoss : Nat
  deriving DecidableEq, Repr

/-! ### Door units -/

/-- A release under way (R146): in DRIVE or still in DELAY, its run durations in tenths and its run timer. -/
structure Run where
  drive : Bool
  delay : Nat
  width : Nat
  ms : Nat
  deriving DecidableEq, Repr

/-- A door unit (spec/08) with its door table entry; `run` is absent in IDLE, and samples and contacts are true for
OPEN. -/
structure DoorUnit where
  entry : DoorEntry
  run : Option Run
  grace : Option Nat
  lastSample : Bool
  contact : Bool
  door : DoorState
  held : Option Nat
  ignored : Nat
  deriving DecidableEq, Repr

/-! ### Measurement, feeds and supply -/

/-- A measurement channel (spec/09, 9.1). -/
structure Channel where
  filtered : Nat
  seed : Bool
  deriving DecidableEq, Repr

/-- The measurement unit's nine channels (R157). -/
structure Measurement where
  voltage : Vector Channel 4
  current : Vector Channel 4
  battery : Channel
  deriving DecidableEq, Repr

/-- The feed monitor of one riser (spec/09, 9.2) with its riser table entry. -/
structure Feed where
  entry : RiserEntry
  state : FeedState
  retries : Nat
  settle : Option Nat
  retry : Option Nat
  stable : Option Nat
  deriving DecidableEq, Repr

/-- The supply monitor (spec/09, 9.3): the previous samples, older first, true for PRESENT. -/
structure Supply where
  record : SupplyRecord
  samples : List Bool
  mains : Option Bool
  mode : Option Mode
  deriving DecidableEq, Repr

/-! ### Management unit and settings store -/

/-- The 19 latched conditions (spec/10). -/
structure Conditions where
  doorHeld : Vector Bool 6
  doorForced : Vector Bool 6
  feedHeld : Vector Bool 4
  supplyDepleted : Bool
  storeInvalid : Bool
  urgentUnanswered : Bool
  deriving DecidableEq, Repr

/-- The management unit (spec/10). A window is closed when absent; bit k of the mask enables notice kind k + 1. -/
structure Management where
  windows : Vector (Option Nat) 6
  conditions : Conditions
  notices : List Notice
  lost : Bool
  mask : BitVec 9
  deriving DecidableEq, Repr

/-- Everything SAVE captures (R187). -/
structure Settings where
  entries : Vector (Option Apartment) 250
  handsets : Vector (Vector HandsetEntry 60) 4
  classes : Vector ClassParams 6
  profiles : Vector Profile 4
  doors : Vector DoorEntry 6
  risers : Vector RiserEntry 4
  supply : SupplyRecord
  mask : BitVec 9
  deskOpen : Bool
  deriving DecidableEq, Repr

/-- Save phases (spec/11); WRITING counts the pages written so far. -/
inductive SavePhase where
  | idle
  | erasing
  | writing (pages : Nat)
  | marking
  deriving DecidableEq, Repr

/-- The save snapshot (R187): what can change while a save runs, as it stood when the SAVE was taken. -/
structure Snapshot where
  hasPrivacy : Vector Bool 250
  mask : BitVec 9
  deskOpen : Bool
  deriving DecidableEq, Repr

/-- The settings store (spec/11): what the sixteen pages hold once all are written, absent while they are erased or
only partly written; the validity mark; the save phase and the snapshot. -/
structure Store where
  pages : Option Settings
  valid : Bool
  phase : SavePhase
  snapshot : Option Snapshot
  deriving DecidableEq, Repr

/-- The start-up sequence while it runs (R191): the next riser, and the time left before it, 0 when the sequence waits
for the first supply mode or is due. -/
structure Startup where
  next : Riser
  ms : Nat
  deriving DecidableEq, Repr

/-! ### The exchange -/

/-- The whole exchange, one field for each block, with the start-up sequence and the queue of waiting commands. -/
structure State where
  ctl : CallControl
  dir : DirectoryUnit
  arb : Arbiter
  ring : RingScheduler
  desk : DeskUnit
  risers : Vector RiserControl 4
  links : Vector LinkUnit 7
  doors : Vector DoorUnit 6
  meas : Measurement
  feeds : Vector Feed 4
  supply : Supply
  mgmt : Management
  store : Store
  startup : Option Startup
  pending : List Instr
  deriving DecidableEq, Repr

/-- Why the machine may stop with a fault. The spec gives the exchange no way to stop: every command leaves a next
state, so there is no constructor and nobody raises a fault (safe: nothing is hidden behind one). -/
inductive Fault where
  deriving DecidableEq, Repr

/-- Why a command has no meaning. -/
inductive Refusal where
  /-- Raised by `exec`'s arm of a command that has no meaning yet, with its mnemonic; safe. No arm raises it now. -/
  | notModelled (mnemonic : String)
  deriving DecidableEq, Repr

/-! ### Reset values -/

/-- The call table and line states of R1, R2 and R3; the floor before the first supply mode is a design choice
(notes/assumptions/5.md). -/
def CallControl.reset : CallControl :=
  { calls := Vector.replicate 24 none, lines := Vector.replicate 4 (Vector.replicate 60 .idle), stamp := 0, floor := 0 }

/-- Default tables (R48). -/
def DirectoryUnit.reset : DirectoryUnit :=
  { entries := Vector.replicate 250 none, handsets := Vector.replicate 4 (Vector.replicate 60 .default),
    classes := ClassParams.defaults, profiles := Profile.defaults }

/-- A riser without slots held or calls waiting (R75). -/
def RiserSlots.empty : RiserSlots :=
  { cells := Vector.replicate 4 { holder := none, reserved := none }, order := [], wait := [] }

/-- R75; the usable slot count before the first supply mode is a design choice (notes/assumptions/5.md). -/
def Arbiter.reset : Arbiter :=
  { risers := Vector.replicate 4 .empty, usable := 4, cross := [], due := [] }

/-- R92; the ring percent before the first supply mode is a design choice (notes/assumptions/5.md). -/
def RingScheduler.reset : RingScheduler :=
  { sounding := Vector.replicate 4 [], percent := 100 }

/-- R110. -/
def DeskUnit.reset : DeskUnit :=
  { isOpen := false, lines := Vector.replicate 2 .free, queue := [] }

/-- R134 for a riser with no enrolled address; the poll pause before the first supply mode is a design choice
(notes/assumptions/5.md). -/
def RiserControl.reset : RiserControl :=
  { presence := Vector.replicate 60 .absent, missed := Vector.replicate 60 0, pointer := none, attention := [],
    attentionPos := none, lastPoll := .extra, turn := .attention, control := [], controlTry := 0, indications := [],
    indicationTry := 0, pause := 0, survey := none, parityErrors := 0, wordErrors := 0, dropped := 0, use := .silent,
    useMs := 0, allClearMs := 0 }

/-- R145. -/
def LinkUnit.reset : LinkUnit :=
  { up := false, liveness := none, received := [], gap := none, sendList := [], sending := none, statusMs := 1000,
    sequence := 0, frameErrors := 0, sendLoss := 0 }

/-- R156 with the door shut at the first sample (notes/assumptions/6.md). -/
def DoorUnit.reset : DoorUnit :=
  { entry := .default, run := none, grace := none, lastSample := false, contact := false, door := .shut, held := none,
    ignored := 0 }

/-- R169: every channel waits for its first conversion; the code before it is a design choice
(notes/assumptions/7.md). -/
def Measurement.reset : Measurement :=
  { voltage := Vector.replicate 4 { filtered := 0, seed := true },
    current := Vector.replicate 4 { filtered := 0, seed := true }, battery := { filtered := 0, seed := true } }

/-- R169. -/
def Feed.reset : Feed :=
  { entry := .default, state := .offHeld .start, retries := 0, settle := none, retry := none, stable := none }

/-- R170, R173. -/
def Supply.reset : Supply :=
  { record := .default, samples := [], mains := none, mode := none }

/-- R186 with the store not valid: STORE-INVALID is raised and its notices wait (R190). -/
def Management.reset : Management :=
  { windows := Vector.replicate 6 none,
    conditions :=
      { doorHeld := Vector.replicate 6 false, doorForced := Vector.replicate 6 false,
        feedHeld := Vector.replicate 4 false, supplyDepleted := false, storeInvalid := true, urgentUnanswered := false },
    notices := [.store .invalidAtStart, .condition .storeInvalid], lost := false, mask := BitVec.allOnes 9 }

/-- A store that holds no settings (notes/assumptions/8.md). -/
def Store.reset : Store :=
  { pages := none, valid := false, phase := .idle, snapshot := none }

/-- The exchange right after the first steps of a cold start (R190) whose validity mark is NOT VALID, with every door
contact closed at its first sample, and waiting for the first supply mode. -/
def State.reset : State :=
  { ctl := .reset, dir := .reset, arb := .reset, ring := .reset, desk := .reset, risers := Vector.replicate 4 .reset,
    links := Vector.replicate 7 .reset, doors := Vector.replicate 6 .reset, meas := .reset,
    feeds := Vector.replicate 4 .reset, supply := .reset, mgmt := .reset, store := .reset,
    startup := some { next := 0, ms := 0 }, pending := [] }

end Sys2Proof.Machine
end

