-- ==== Sys2Proof/Machine/Operands.lean ====
section
/-! DEFINITION. The operand forms: how the bytes a command carries name an entrance, a riser, a node, a line, a call
record, a table entry or a field value (spec/13), which of them name nothing, and how numbers are clamped (R177). -/

namespace Sys2Proof.Machine

open Sys2Proof

/-- The number a byte gives if it is below `n`: how an entrance, a riser, a call record or an entry is named. -/
def finOf (n : Nat) (b : Byte) : Option (Fin n) :=
  if h : b.toNat < n then some ⟨b.toNat, h⟩ else none

/-- The node with the address `b`, 1 to 60. -/
def nodeOf (b : Byte) : Option Node :=
  if h : 1 ≤ b.toNat ∧ b.toNat ≤ 60 then some ⟨b.toNat - 1, by omega⟩ else none

/-- The node's address, 1 to 60. -/
def addressOf (n : Node) : Nat := n.val + 1

/-- The console line with the number `b`, 1 or 2. -/
def lineOf (b : Byte) : Option LineNo :=
  if b = 1 then some 0 else if b = 2 then some 1 else none

/-- The line's number on the wire, 1 or 2. -/
def lineNumber (l : LineNo) : Nat := l.val + 1

/-- A yes-or-no byte, or one of two named values coded 1 and 0 (spec/13, 13.3). -/
def flagOf (b : Byte) : Option Bool :=
  if b = 1 then some true else if b = 0 then some false else none

/-- The entry number of a table whose index is 0 and the entry number (spec/13, 13.3). -/
def entryOf (n : Nat) (i : EntryIndex) : Option (Fin n) :=
  if i.hi = 0 then finOf n i.lo else none

/-- The handset a handset table index names. -/
def handsetOf (i : EntryIndex) : Option Handset :=
  match finOf 4 i.hi, nodeOf i.lo with
  | some r, some n => some { riser := r, node := n }
  | _, _ => none

/-- `n` brought into the range `lo` to `hi` (R177). -/
def clampTo (lo hi n : Nat) : Nat :=
  if n < lo then lo else if hi < n then hi else n

/-- Whether `n` lies outside the range, so that the reply is CLAMPED. -/
def outside (lo hi n : Nat) : Bool := n < lo || hi < n

/-- OK, or CLAMPED when some field was brought into range (R177). -/
def clampReply (clamped : Bool) : ReplyCode := if clamped then .clamped else .ok

/-- A counter raised by one, saturating at 65535 (spec/00_scope.md, Units and numbers). -/
def bump (n : Nat) : Nat := if n < 65535 then n + 1 else 65535

/-- A sum saturating at 65535. -/
def satAdd (a b : Nat) : Nat := min 65535 (a + b)

/-- The steps a forward chain's bytes name (spec/13, 13.3): a directory index, or FFh for DESK. -/
def stepOf (b : Byte) : Option Step :=
  if b = 0xFF then some .desk
  else match finOf 250 b with
    | some i => some (.apartment i)
    | none => none

/-- Every element read by `f`, or nothing when `f` reads nothing from some element. -/
def readAll {α β : Type} (f : α → Option β) : List α → Option (List β)
  | [] => some []
  | x :: xs =>
    match f x, readAll f xs with
    | some y, some ys => some (y :: ys)
    | _, _ => none

/-- Whether a list repeats no element. -/
def distinct {α : Type} [DecidableEq α] : List α → Bool
  | [] => true
  | x :: xs => !xs.elem x && distinct xs

/-- A printable label character, 20h to 7Eh (R35). -/
def printable (b : Byte) : Bool := 0x20 ≤ b.toNat && b.toNat ≤ 0x7E

/-- The apartment a directory WRITE-ENTRY supplies for the entry `self`, or nothing when check 1 of R35 fails. -/
def DirectoryWrite.apartment (self : DirIndex) (w : DirectoryWrite) : Option Apartment :=
  match finOf 4 w.riser, readAll nodeOf w.nodes, readAll stepOf w.steps, flagOf w.privacy with
  | some r, some ns, some steps, some p =>
    if w.used = 1 ∧ 1 ≤ w.code.toNat ∧ w.code.toNat ≤ 9999 ∧ 1 ≤ ns.length ∧ ns.length ≤ 4 ∧ distinct ns = true ∧
        steps.length ≤ 2 ∧ distinct steps = true ∧ steps.elem (.apartment self) = false ∧ w.label.length ≤ 16 ∧
        w.label.all printable = true then
      some { code := w.code, riser := r, nodes := ns, chain := steps, hasPrivacy := p, label := w.label }
    else none
  | _, _, _, _ => none

/-- The handset entry a WRITE-ENTRY supplies, its load clamped, and the reply a clean write gives (R41). -/
def HandsetWrite.entry (w : HandsetWrite) : Option (HandsetEntry × ReplyCode) :=
  match flagOf w.enrolled with
  | some e => some ({ enrolled := e, load := clampTo 5 80 w.load.toNat }, clampReply (outside 5 80 w.load.toNat))
  | none => none

/-- The class entry a WRITE-ENTRY supplies (R42). -/
def ClassWrite.params (w : ClassWrite) : Option (ClassParams × ReplyCode) :=
  match finOf 4 w.profile with
  | some p =>
    if w.base.toNat ≤ 7 ∧ w.flags.toNat < 8 then
      some ({ base := w.base.toNat, aging := clampTo 0 60 w.aging.toNat, queue := clampTo 0 120 w.queue.toNat,
              cycles := clampTo 1 30 w.cycles.toNat, talk := clampTo 10 600 w.talk.toNat, profile := p,
              preempt := w.flags.getLsbD 0, hasPrivacy := w.flags.getLsbD 1, forward := w.flags.getLsbD 2 },
            clampReply (outside 0 60 w.aging.toNat || outside 0 120 w.queue.toNat || outside 1 30 w.cycles.toNat ||
              outside 10 600 w.talk.toNat))
    else none
  | none => none

/-- The cadence profile a WRITE-ENTRY supplies (R45). -/
def ProfileWrite.profile (w : ProfileWrite) : Option (Profile × ReplyCode) :=
  let p : Profile := { on1 := clampTo 0 40 w.on1.toNat, off1 := clampTo 0 40 w.off1.toNat,
                       on2 := clampTo 0 40 w.on2.toNat, off2 := clampTo 0 40 w.off2.toNat }
  if p.on1 = 0 ∨ p.on1 + p.off1 + p.on2 + p.off2 < 2 then none
  else some (p, clampReply (outside 0 40 w.on1.toNat || outside 0 40 w.off1.toNat || outside 0 40 w.on2.toNat ||
    outside 0 40 w.off2.toNat))

/-- The door table entry a WRITE-ENTRY supplies (R155). -/
def DoorWrite.entry (w : DoorWrite) : Option (DoorEntry × ReplyCode) :=
  match flagOf w.forced, flagOf w.polarity, flagOf w.sense with
  | some f, some p, some c =>
    some ({ delay := clampTo 0 50 w.delay.toNat, width := clampTo 1 100 w.width.toNat,
            grace := clampTo 0 100 w.grace.toNat, heldLimit := clampTo 5 600 w.heldLimit.toNat, forced := f,
            unlockOnDrive := p, openWhenHigh := c },
          clampReply (outside 0 50 w.delay.toNat || outside 1 100 w.width.toNat || outside 0 100 w.grace.toNat ||
            outside 5 600 w.heldLimit.toNat))
  | _, _, _ => none

/-- The riser table entry a WRITE-ENTRY supplies (R167). -/
def RiserWrite.entry (w : RiserWrite) : Option (RiserEntry × ReplyCode) :=
  match flagOf w.enabled with
  | some e =>
    some ({ enabled := e, budget := clampTo 20 400 w.budget.toNat, missed := clampTo 2 10 w.missed.toNat,
            short := clampTo 200 1500 w.short.toNat, sag := clampTo 12000 30000 w.sag.toNat },
          clampReply (outside 20 400 w.budget.toNat || outside 2 10 w.missed.toNat || outside 200 1500 w.short.toNat ||
            outside 12000 30000 w.sag.toNat))
  | none => none

/-- The supply record a WRITE-ENTRY supplies (R172). -/
def SupplyWrite.record (w : SupplyWrite) : SupplyRecord × ReplyCode :=
  ({ fullFloor := clampTo 0 6 w.fullFloor.toNat, percent := clampTo 25 100 w.percent.toNat,
     slots := clampTo 1 4 w.slots.toNat, floor := clampTo 0 6 w.floor.toNat, pause := clampTo 0 500 w.pause.toNat,
     depleted := clampTo 9000 12000 w.depleted.toNat },
   clampReply (outside 0 6 w.fullFloor.toNat || outside 25 100 w.percent.toNat || outside 1 4 w.slots.toNat ||
     outside 0 6 w.floor.toNat || outside 0 500 w.pause.toNat || outside 9000 12000 w.depleted.toNat))

/-- A condition's code and instance byte read (R182): a code that is none of the six is BAD-VALUE, an instance out of
range BAD-INDEX; the instance byte is read for the first three conditions alone. -/
def conditionOf (cond inst : Byte) : Except ReplyCode Condition :=
  match cond.toNat with
  | 1 => match finOf 6 inst with
    | some e => .ok (.doorHeld e)
    | none => .error .badIndex
  | 2 => match finOf 6 inst with
    | some e => .ok (.doorForced e)
    | none => .error .badIndex
  | 3 => match finOf 4 inst with
    | some r => .ok (.feedHeld r)
    | none => .error .badIndex
  | 4 => .ok .supplyDepleted
  | 5 => .ok .storeInvalid
  | 6 => .ok .urgentUnanswered
  | _ => .error .badValue

/-- The place of a class in the class table: its code (spec/13, 13.5). -/
def CallClass.index : CallClass → Fin 6
  | .visitor => 0
  | .panelDesk => 1
  | .neighbour => 2
  | .deskOut => 3
  | .deskIn => 4
  | .urgent => 5



/-- The place of a link among the seven link units: E0 to E5, then the desk link. -/
def linkIndex : Link → Fin 7
  | .entrance e => ⟨e.val, by omega⟩
  | .desk => 6

/-- All call records in ascending order. -/
def allCalls : List CallId := [0, 1, 2, 3, 4, 5, 6, 7, 8, 9, 10, 11, 12, 13, 14, 15, 16, 17, 18, 19, 20, 21, 22, 23]

/-- All risers in order A to D. -/
def allRisers : List Riser := [0, 1, 2, 3]

/-- All slots of a riser in ascending order. -/
def allSlots : List Slot := [0, 1, 2, 3]

/-- All entrances in order. -/
def allEntrances : List Entrance := [0, 1, 2, 3, 4, 5]

/-- All links in order. -/
def allLinks : List Link := [.entrance 0, .entrance 1, .entrance 2, .entrance 3, .entrance 4, .entrance 5, .desk]

/-- All nodes of a riser in ascending order of address. -/
def allNodes : List Node :=
  [0, 1, 2, 3, 4, 5, 6, 7, 8, 9, 10, 11, 12, 13, 14, 15, 16, 17, 18, 19] ++
  [20, 21, 22, 23, 24, 25, 26, 27, 28, 29, 30, 31, 32, 33, 34, 35, 36, 37, 38, 39] ++
  [40, 41, 42, 43, 44, 45, 46, 47, 48, 49, 50, 51, 52, 53, 54, 55, 56, 57, 58, 59]

end Sys2Proof.Machine
end

