-- ==== Sys2Proof/Machine/Flags.lean ====
section
/-! DEFINITION. The values the exchange computes from its state and does not hold on their own: units of time, feed ON
or OFF, the ring budget and sum, effective levels, slot counts, who is free, what the pins show. -/

namespace Sys2Proof.Machine

open Sys2Proof

/-! ### Units of time -/

/-- Tenths elapsed, saturating at 65535 (R58). -/
def tenths (ms : Nat) : Nat := min 65535 (ms / 100)

/-- Whole units left of a running timer that falls by one at the end of each unit. -/
def unitsLeft (unit ms : Nat) : Nat := (ms + (unit - 1)) / unit

/-- Minutes remaining of a service window, 0 when closed (R175). -/
def windowMinutes (w : Option Nat) : Nat :=
  match w with
  | some ms => (unitsLeft 1000 ms + 59) / 60
  | none => 0

/-! ### Calls -/

/-- The live call of a record, `none` for a FREE record (R1). -/
def State.call? (s : State) (c : CallId) : Option Call := s.ctl.calls[c]

/-- The line state of a handset (R3). -/
def State.lineState (s : State) (h : Handset) : LineState := s.ctl.lines[h.riser][h.node]

/-- The lowest-numbered FREE record (R1). -/
def State.freeRecord (s : State) : Option CallId := allCalls.find? fun c => (s.call? c).isNone

/-- The first live call whose record satisfies `p`. -/
def State.findCall (s : State) (p : Call → Bool) : Option CallId :=
  allCalls.find? fun c =>
    match s.call? c with
    | some x => p x
    | none => false

/-- The live call, ENDING included, that an origin has (R12). -/
def State.originCall (s : State) (o : Origin) : Option CallId := s.findCall fun x => x.origin == o

/-- Whether a call is answered: its answer latency has been captured. -/
def Call.answered (x : Call) : Bool := x.latency.isSome

/-- Whether a call is in TALK or HELD. -/
def Call.connected (x : Call) : Bool :=
  match x.state with
  | .talk => true
  | .held => true
  | _ => false

/-- Whether a handset is a handset party of a call: its answering handset, or its origin handset once it is answered
(spec/01, 1.1). -/
def Call.hasParty (x : Call) (h : Handset) : Bool :=
  x.answering == some h || (x.answered && x.origin == .handset h)

/-- The console line that holds a call, as origin or as party. -/
def Call.consoleLine (x : Call) : Option LineNo :=
  match x.origin with
  | .line l => some l
  | _ => x.line

/-- The call's slot on a riser. -/
def Call.slotOn (x : Call) (r : Riser) : Option Slot :=
  (x.slots.find? fun p => p.1 == r).map (·.2)

/-- Stamp `a` is earlier than stamp `b` in modulo order (R2). -/
def earlier (a b : BitVec 16) : Bool :=
  let d := (b - a).toNat
  1 ≤ d && d ≤ 32767

/-- The effective level of a waiting call (R58). -/
def Call.level (x : Call) : Nat :=
  if x.claim then 7
  else if x.params.base = 7 then 7
  else if x.params.aging = 0 then x.params.base
  else min 6 (x.params.base + tenths x.waitMs / 10 / x.params.aging)

/-- Talk elapsed in seconds, never above the latched talk limit (R21). -/
def Call.talkSeconds (x : Call) : Option Nat := x.talkMs.map fun ms => min x.params.talk (ms / 1000)

/-! ### Directory -/

/-- The handset table entry of a handset. -/
def State.handsetEntry (s : State) (h : Handset) : HandsetEntry := s.dir.handsets[h.riser][h.node]

/-- The first directory index whose used entry satisfies `p`. -/
def State.findEntry (s : State) (p : Apartment → Bool) : Option DirIndex :=
  match s.dir.entries.toList.findIdx? (fun
      | some a => p a
      | none => false) with
  | some i => if h : i < 250 then some ⟨i, h⟩ else none
  | none => none

/-- The used entry that holds an apartment code (R32). -/
def State.entryOfCode (s : State) (code : BitVec 16) : Option DirIndex := s.findEntry fun a => a.code == code

/-- Whether an apartment lists a handset. -/
def Apartment.lists (a : Apartment) (h : Handset) : Bool := a.riser == h.riser && a.nodes.elem h.node

/-- The used entry that lists a handset (R33). -/
def State.entryListing (s : State) (h : Handset) : Option DirIndex := s.findEntry fun a => a.lists h

/-- The handsets of an apartment in list order. -/
def Apartment.handsets (a : Apartment) : List Handset := a.nodes.map fun n => { riser := a.riser, node := n }

/-! ### Feeds, presence and freedom -/

/-- A feed is ON in ON-NORMAL and ON-SAG (spec/09, 9.2). -/
def FeedState.isOn : FeedState → Bool
  | .onNormal => true
  | .onSag => true
  | .offRetry => false
  | .offHeld _ => false

/-- Whether a riser's feed is ON. -/
def State.feedOn (s : State) (r : Riser) : Bool := s.feeds[r].state.isOn

/-- A node's presence at its riser controller (R114). -/
def State.presenceOf (s : State) (h : Handset) : Presence := s.risers[h.riser].presence[h.node]

/-- A handset is free when it is IDLE and not the origin of a live call (R3). -/
def State.isFree (s : State) (h : Handset) : Bool :=
  s.lineState h == .idle && (s.originCall (.handset h)).isNone

/-- Whether a handset may ring now: enrolled, PRESENT and free (R19, R34). -/
def State.mayRing (s : State) (h : Handset) : Bool :=
  (s.handsetEntry h).enrolled && s.presenceOf h == .present && s.isFree h

/-- The handsets of an apartment that may ring now, in list order (R34). -/
def State.ringable (s : State) (i : DirIndex) : List Handset :=
  match s.dir.entries[i] with
  | some a => a.handsets.filter s.mayRing
  | none => []

/-- Whether a message can be queued for a handset: its riser's feed is ON and it is PRESENT (R122, R131). -/
def State.reachable (s : State) (h : Handset) : Bool := s.feedOn h.riser && s.presenceOf h == .present

/-! ### Receiving -/

/-- The length of the gap timer in ms: it is out when more than 20 ms have passed since a frame's last byte (R136). -/
def gapMs : Nat := 21

/-! ### Talk slots -/

/-- The held count of a riser (spec/03). -/
def RiserSlots.held (a : RiserSlots) : Nat := (allSlots.filter fun k => a.cells[k].holder.isSome).length

/-- The lowest FREE slot that carries no reservation (R49). -/
def RiserSlots.freeSlot (a : RiserSlots) : Option Slot :=
  allSlots.find? fun k => a.cells[k].holder.isNone && a.cells[k].reserved.isNone

/-- The lowest FREE slot that carries a reservation (R61). DESIGN CHOICE: of several it is served first; the spec gives
no order among them (notes/assumptions/38.md). -/
def RiserSlots.reservedSlot (a : RiserSlots) : Option (Slot × CallId) :=
  match allSlots.find? fun k => a.cells[k].holder.isNone && a.cells[k].reserved.isSome with
  | some k =>
    match a.cells[k].reserved with
    | some c => some (k, c)
    | none => none
  | none => none

/-- Whether a riser's held count is below the usable slot count. -/
def State.hasRoom (s : State) (r : Riser) : Bool := s.arb.risers[r].held < s.arb.usable

/-- Whether a slot of the riser can be granted now to a call without a reservation. -/
def State.canGrant (s : State) (r : Riser) : Bool :=
  s.feedOn r && s.hasRoom r && s.arb.risers[r].freeSlot.isSome

/-- The riser of an apartment. -/
def State.riserOf (s : State) (i : DirIndex) : Option Riser := (s.dir.entries[i]).map (·.riser)

/-- The riser of a call's apartment target. -/
def State.targetRiser (s : State) (x : Call) : Option Riser :=
  match x.target with
  | .apartment i => s.riserOf i
  | _ => none

/-- The riser of a handset origin. -/
def Call.originRiser (x : Call) : Option Riser :=
  match x.origin with
  | .handset h => some h.riser
  | _ => none

/-- The risers whose slots a call needs (R17, R54): the target riser, and for a handset origin on another riser that
riser too; for a desk claim the origin riser alone. -/
def State.neededRisers (s : State) (x : Call) : List Riser :=
  if x.claim then x.originRiser.toList
  else
    match s.targetRiser x, x.originRiser with
    | some t, some o => if t = o then [t] else [t, o]
    | some t, none => [t]
    | none, _ => []

/-! ### Ringing -/

/-- The ring percent of a mode (R80). -/
def SupplyRecord.percentOf (p : SupplyRecord) : Mode → Nat
  | .full => 100
  | .reserve => p.percent
  | .depleted => 0

/-- The usable slot count of a mode (R50). -/
def SupplyRecord.slotsOf (p : SupplyRecord) : Mode → Nat
  | .full => 4
  | .reserve => p.slots
  | .depleted => 1

/-- The admission floor of a mode (R14). -/
def SupplyRecord.floorOf (p : SupplyRecord) : Mode → Nat
  | .full => p.fullFloor
  | .reserve => p.floor
  | .depleted => 5

/-- The poll pause of a mode in ms (R119). -/
def SupplyRecord.pauseOf (p : SupplyRecord) : Mode → Nat
  | .full => 0
  | .reserve => p.pause
  | .depleted => 500

/-- The effective ring budget from its three inputs (R80). -/
def beffOf (budget percent : Nat) (f : FeedState) : Nat :=
  match f with
  | .onNormal => budget * percent / 100
  | .onSag => budget * percent / 100 / 2
  | .offRetry => 0
  | .offHeld _ => 0

/-- The effective ring budget Beff of a riser (R80). -/
def State.beff (s : State) (r : Riser) : Nat :=
  beffOf s.feeds[r].entry.budget s.ring.percent s.feeds[r].state

/-- The sum of the admitted loads of a sounding set (R83). -/
def loadSum : List Sounding → Nat
  | [] => 0
  | x :: xs => x.load + loadSum xs

/-- The sounding sum S of a riser (R83). -/
def State.soundSum (s : State) (r : Riser) : Nat := loadSum s.ring.sounding[r]

/-- The duration of a segment in a profile, in ring units. -/
def Profile.units (p : Profile) : Segment → Nat
  | .on1 => p.on1
  | .off1 => p.off1
  | .on2 => p.on2
  | .off2 => p.off2

/-- The segments that follow a segment to the end of the cycle (R77). -/
def Segment.following : Segment → List Segment
  | .on1 => [.off1, .on2, .off2]
  | .off1 => [.on2, .off2]
  | .on2 => [.off2]
  | .off2 => []

/-- The ON segments (spec/04, 4.1). -/
def Segment.isOn : Segment → Bool
  | .on1 => true
  | .on2 => true
  | .off1 => false
  | .off2 => false

/-! ### Desk, links, doors -/

/-- A link's unit. -/
def State.link (s : State) (l : Link) : LinkUnit := s.links[linkIndex l]

/-- The desk is available when the desk open flag is set and the desk link is UP (R16). -/
def State.deskAvailable (s : State) : Bool := s.desk.isOpen && (s.link .desk).up

/-- The call on a console line. -/
def ConsoleLine.call? : ConsoleLine → Option CallId
  | .free => none
  | .active c => some c
  | .held c => some c

/-- Whether a console line is FREE. -/
def ConsoleLine.isFree : ConsoleLine → Bool
  | .free => true
  | _ => false

/-- Whether a console line is ACTIVE. -/
def ConsoleLine.isActive : ConsoleLine → Bool
  | .active _ => true
  | _ => false

/-- The line a new call on the console takes: line 1 when it is FREE and line 2 otherwise (R96). -/
def DeskUnit.freeLine (d : DeskUnit) : Option LineNo :=
  if d.lines[0].isFree then some 0 else if d.lines[1].isFree then some 1 else none

/-- The other console line. -/
def otherLine (l : LineNo) : LineNo := if l = 0 then 1 else 0

/-- Whether the authorised window of a door is open: DRIVE, or the grace timer running (spec/08). -/
def DoorUnit.authorised (d : DoorUnit) : Bool :=
  (match d.run with
   | some r => r.drive
   | none => false) || d.grace.isSome

/-- Whether a door's release unit is in DRIVE. -/
def DoorUnit.inDrive (d : DoorUnit) : Bool :=
  match d.run with
  | some r => r.drive
  | none => false

/-- The lock drive output pin, true when driven (R148). -/
def State.lockDrive (s : State) (e : Entrance) : Bool := s.doors[e].inDrive == s.doors[e].entry.unlockOnDrive

/-- Whether the lock drive output stands at its released level for the door's polarity (R148). -/
def State.lockReleased (s : State) (e : Entrance) : Bool := s.lockDrive e == s.doors[e].entry.unlockOnDrive

/-- The feed switch drive pin of a riser, true when driven (R160). -/
def State.feedSwitch (s : State) (r : Riser) : Bool := s.feedOn r

/-- A sample of a door contact input read through the contact sense, true for OPEN (R150). -/
def DoorEntry.reads (d : DoorEntry) (high : Bool) : Bool := high == d.openWhenHigh

/-! ### Measurement -/

/-- A feed voltage in mV (R157). -/
def voltageMv (code : Nat) : Nat := code * 40

/-- A feed current in mA (R157). -/
def currentMa (code : Nat) : Nat := code * 2

/-- The battery voltage in mV (R157). -/
def batteryMv (code : Nat) : Nat := code * 20

/-! ### Conditions -/

/-- Whether a condition is latched (R181). -/
def Conditions.latched (k : Conditions) : Condition → Bool
  | .doorHeld e => k.doorHeld[e]
  | .doorForced e => k.doorForced[e]
  | .feedHeld r => k.feedHeld[r]
  | .supplyDepleted => k.supplyDepleted
  | .storeInvalid => k.storeInvalid
  | .urgentUnanswered => k.urgentUnanswered

/-- Whether the cause of a condition persists (R182). -/
def State.causePersists (s : State) : Condition → Bool
  | .doorHeld e => s.doors[e].door == .openHeld
  | .doorForced e => s.doors[e].door == .openForced && s.doors[e].entry.forced
  | .feedHeld r => s.feeds[r].state == .offHeld .fault
  | .supplyDepleted => s.supply.mode == some .depleted
  | .storeInvalid => !s.store.valid
  | .urgentUnanswered => false

/-- Whether a SAVE is in progress (R187). -/
def State.saving (s : State) : Bool := !(s.store.phase == .idle)

/-- Whether a request from a link is executed (R174). -/
def State.sourceAllowed (s : State) : Link → Bool
  | .desk => true
  | .entrance e => s.mgmt.windows[e].isSome

end Sys2Proof.Machine
end

