-- ==== Sys2Proof/Machine/Ops.lean ====
section
/-! DEFINITION. The named operations every block uses: the one write of each table of the state, notices and
conditions, frames handed to a link, messages queued for a handset, line states and the attention list. -/

namespace Sys2Proof.Machine

open Sys2Proof

/-! ### One write for each table -/

/-- A call record written, `none` for FREE. -/
def State.setCall (s : State) (c : CallId) (x : Option Call) : State :=
  { s with ctl := { s.ctl with calls := put s.ctl.calls c x } }

/-- A live call changed; a FREE record is left alone (R1). -/
def State.modCall (s : State) (c : CallId) (f : Call → Call) : State :=
  match s.call? c with
  | some x => s.setCall c (some (f x))
  | none => s

/-- A line state written, without any report. -/
def State.putLine (s : State) (h : Handset) (v : LineState) : State :=
  { s with ctl := { s.ctl with lines := upd s.ctl.lines h.riser fun row => put row h.node v } }

/-- A riser controller changed. -/
def State.modRiser (s : State) (r : Riser) (f : RiserControl → RiserControl) : State :=
  { s with risers := upd s.risers r f }

/-- A riser's slots, grant order and wait list changed. -/
def State.modSlots (s : State) (r : Riser) (f : RiserSlots → RiserSlots) : State :=
  { s with arb := { s.arb with risers := upd s.arb.risers r f } }

/-- A riser's sounding set written. -/
def State.setSounding (s : State) (r : Riser) (xs : List Sounding) : State :=
  { s with ring := { s.ring with sounding := put s.ring.sounding r xs } }

/-- A link unit changed. -/
def State.modLink (s : State) (l : Link) (f : LinkUnit → LinkUnit) : State :=
  { s with links := upd s.links (linkIndex l) f }

/-- A door unit changed. -/
def State.modDoor (s : State) (e : Entrance) (f : DoorUnit → DoorUnit) : State :=
  { s with doors := upd s.doors e f }

/-- A riser's feed monitor changed. -/
def State.modFeed (s : State) (r : Riser) (f : Feed → Feed) : State :=
  { s with feeds := upd s.feeds r f }

/-- The crosspoint written. -/
def State.setCross (s : State) (xs : List Connection) : State :=
  { s with arb := { s.arb with cross := xs } }

/-- A console line written. -/
def State.setConsole (s : State) (l : LineNo) (v : ConsoleLine) : State :=
  { s with desk := { s.desk with lines := put s.desk.lines l v } }

/-- The desk queue written. -/
def State.setDeskQueue (s : State) (q : List CallId) : State :=
  { s with desk := { s.desk with queue := q } }

/-! ### Notices and conditions -/

/-- The kind of a notice, 1 to 9 (spec/13, 13.4). -/
def Notice.kind : Notice → Nat
  | .callEnd _ => 1
  | .door _ _ => 2
  | .node _ _ => 3
  | .feed _ _ _ => 4
  | .supply _ => 5
  | .survey _ _ _ => 6
  | .store _ => 7
  | .condition _ => 8
  | .restart _ => 9

/-- The notice queue takes an offered notice (R183): not queued when its kind is masked, dropped with the notices-lost
flag set when the queue holds 16. -/
def Management.offer (m : Management) (n : Notice) : Management :=
  if m.mask.getLsbD (n.kind - 1) then
    if m.notices.length < 16 then { m with notices := m.notices ++ [n] } else { m with lost := true }
  else m

/-- A notice offered to the notice queue (R183). -/
def State.offer (s : State) (n : Notice) : State := { s with mgmt := s.mgmt.offer n }

/-- A condition set latched or clear. -/
def Conditions.set (k : Conditions) (v : Bool) : Condition → Conditions
  | .doorHeld e => { k with doorHeld := put k.doorHeld e v }
  | .doorForced e => { k with doorForced := put k.doorForced e v }
  | .feedHeld r => { k with feedHeld := put k.feedHeld r v }
  | .supplyDepleted => { k with supplyDepleted := v }
  | .storeInvalid => { k with storeInvalid := v }
  | .urgentUnanswered => { k with urgentUnanswered := v }

/-- A condition written latched or clear, without a notice. -/
def State.setCondition (s : State) (v : Bool) (k : Condition) : State :=
  { s with mgmt := { s.mgmt with conditions := s.mgmt.conditions.set v k } }

/-- A raising reaches a condition (R181): a clear one becomes latched with a CONDITION notice, a latched one stays. -/
def State.raise (s : State) (k : Condition) : State :=
  if s.mgmt.conditions.latched k then s else (s.setCondition true k).offer (.condition k)

/-! ### Frames handed to a link -/

/-- A PROGRESS frame. -/
def Frame.isProgress : Frame → Bool
  | .signal (.progress _ _) => true
  | _ => false

/-- A STATUS frame. -/
def Frame.isStatus : Frame → Bool
  | .status _ => true
  | _ => false

/-- A SIGNAL frame. -/
def Frame.isSignal : Frame → Bool
  | .signal _ => true
  | _ => false

/-- The frames a DOWN link discards: SIGNAL and REPLY (R140). -/
def Frame.needsUp : Frame → Bool
  | .signal _ => true
  | .reply _ => true
  | .notice _ _ => false
  | .status _ => false

/-- The waiting PROGRESS of an entrance link's send list replaced by a later one, in its place (R140). -/
def replaceProgress (f : Frame) : List Frame → List Frame
  | [] => []
  | x :: xs => if x.isProgress then f :: xs else x :: replaceProgress f xs

/-- A frame handed to a link unit (R140); `coalesce` on an entrance link, where the send list holds at most one
PROGRESS. -/
def LinkUnit.hand (u : LinkUnit) (coalesce : Bool) (f : Frame) : LinkUnit :=
  if !u.up && f.needsUp then u
  else if coalesce && f.isProgress && u.sendList.any Frame.isProgress then
    { u with sendList := replaceProgress f u.sendList }
  else if u.sendList.length < 16 then { u with sendList := u.sendList ++ [f] }
  else { u with sendLoss := bump u.sendLoss }

/-- Whether a link is an entrance link. -/
def isEntranceLink : Link → Bool
  | .entrance _ => true
  | .desk => false

/-- A frame handed to a link (R140). -/
def State.sendFrame (s : State) (l : Link) (f : Frame) : State := s.modLink l fun u => u.hand (isEntranceLink l) f

/-- PROGRESS to an entrance (spec/07, 7.4). -/
def State.tellEntrance (s : State) (e : Entrance) (p : Progress) : State :=
  s.sendFrame (.entrance e) (.signal (.progress none p))

/-- PROGRESS to the console for one of its lines. -/
def State.tellLine (s : State) (l : LineNo) (p : Progress) : State :=
  s.sendFrame .desk (.signal (.progress (some l) p))

/-- PROGRESS to the console for a call's line, when it has one. -/
def State.tellLine? (s : State) (l : Option LineNo) (p : Progress) : State :=
  match l with
  | some l => s.tellLine l p
  | none => s

/-- REFUSE to the console, naming the signal's code (spec/05, 5.3). -/
def State.refuse (s : State) (signal : Byte) (why : Reason) : State :=
  s.sendFrame .desk (.signal (.refuse signal why))

/-! ### Messages queued for a handset -/

/-- The three categories of indications (R125): ring, TONE and SHOW. -/
def Indication.category : Indication → Fin 3
  | .ring _ => 0
  | .ringStop => 0
  | .tone _ => 1
  | .display _ => 2

/-- The queued entry of the same category for the same node takes the new content, in its place (R125). -/
def replaceIndication (e : IndicationEntry) : List IndicationEntry → List IndicationEntry
  | [] => []
  | x :: xs =>
    if x.node = e.node ∧ x.content.category = e.content.category then e :: xs else x :: replaceIndication e xs

/-- Whether a queue holds an indication of the same category for the same node. -/
def holdsIndication (e : IndicationEntry) (q : List IndicationEntry) : Bool :=
  q.any fun x => x.node == e.node && x.content.category == e.content.category

/-- An indication joins the queue (R125, R126): it takes the place of a queued one of its category and node, is
dropped and counted when the queue holds 24 entries, and joins the end otherwise. The entry in service is never
replaced. -/
def RiserControl.addIndication (u : RiserControl) (e : IndicationEntry) : RiserControl :=
  let inService := if u.indicationTry = 0 then 0 else 1
  let head := u.indications.take inService
  let rest := u.indications.drop inService
  if holdsIndication e rest then { u with indications := head ++ replaceIndication e rest }
  else if u.indications.length < 24 then { u with indications := u.indications ++ [e] }
  else { u with dropped := bump u.dropped }

/-- An indication offered for a handset (R125); one for a node that cannot be reached is discarded (R122, R131). -/
def State.indicate (s : State) (h : Handset) (i : Indication) : State :=
  if s.reachable h then s.modRiser h.riser fun u => u.addIndication { node := h.node, content := i } else s

/-- A tone for a handset. -/
def State.tone (s : State) (h : Handset) (t : Tone) : State := s.indicate h (.tone t)

/-- A command joins its riser's control queue (R124). -/
def State.addCommand (s : State) (r : Riser) (m : Command) : State :=
  s.modRiser r fun u => { u with control := u.control ++ [m] }

/-- SLOT queued for a handset; discarded when the node cannot be reached (R122, R131). -/
def State.sendSlot (s : State) (h : Handset) (k : Slot) : State :=
  if s.reachable h then s.addCommand h.riser (.slot h.node k) else s

/-- CLEAR queued for a handset; not queued, and so reported dropped at once, when the node cannot be reached (R122,
R131). -/
def State.sendClear (s : State) (h : Handset) (c : CallId) : State :=
  if s.reachable h then s.addCommand h.riser (.clear h.node c) else s

/-! ### Line states and the attention list -/

/-- The element before `n` in a list, none when it is at the head or absent. -/
def precedes {α : Type} [DecidableEq α] (n : α) : List α → Option α
  | [] => none
  | [_] => none
  | x :: y :: ys => if y = n then some x else precedes n (y :: ys)

/-- A handset joins the attention list (R117). -/
def RiserControl.joinAttention (u : RiserControl) (n : Node) : RiserControl :=
  if u.attention.elem n then u else { u with attention := u.attention ++ [n] }

/-- A handset leaves the attention list; the attention position passes to the address that preceded it (R117). -/
def RiserControl.leaveAttention (u : RiserControl) (n : Node) : RiserControl :=
  { u with
    attention := u.attention.filter fun m => m != n
    attentionPos := if u.attentionPos = some n then precedes n u.attention else u.attentionPos }

/-- A handset's line state changes; a change between IDLE and another state is reported to its riser controller
(R3, R117). -/
def State.setLine (s : State) (h : Handset) (v : LineState) : State :=
  let old := s.lineState h
  let s1 := s.putLine h v
  if old = .idle ∧ v ≠ .idle then s1.modRiser h.riser fun u => u.joinAttention h.node
  else if old ≠ .idle ∧ v = .idle then s1.modRiser h.riser fun u => u.leaveAttention h.node
  else s1

/-! ### Telling a call's origin -/

/-- WAITING told to a call's origin (R18). -/
def State.tellWaiting (s : State) (x : Call) : State :=
  match x.origin with
  | .entrance e => s.tellEntrance e .waiting
  | .line l => s.tellLine l .waiting
  | .handset h => s.tone h .wait

/-- The label of a call's target entry, empty when it has none. -/
def State.labelOf (s : State) (x : Call) : List Byte :=
  match x.target with
  | .apartment i =>
    match s.dir.entries[i] with
    | some a => a.label
    | none => []
  | _ => []

/-- RINGING told to a call's origin (R19). -/
def State.tellRinging (s : State) (x : Call) : State :=
  match x.origin with
  | .entrance e => s.tellEntrance e (.ringing (s.labelOf x))
  | .line l => s.tellLine l (.ringing (s.labelOf x))
  | .handset h => s.tone h .ringback

end Sys2Proof.Machine
end

