-- ==== Sys2Proof/Machine/Ring.lean ====
section
/-! DEFINITION. The ring scheduler's shared operations (spec/04): admission at an ON segment start, the end of an ON
segment, the start and end of a cadence, withdrawal, cutback. -/

namespace Sys2Proof.Machine

open Sys2Proof

/-- A member that is not sounding: sounding no, admitted load 0. -/
def Member.silenced (m : Member) : Member := { m with sounding := false, load := 0 }

/-- A member that rang silently in a segment (R82, R84): silenced, with one more skipped segment. -/
def Member.skip (m : Member) : Member := { m.silenced with skipped := bump m.skipped }

/-- A handset joins the end of its riser's sounding set (R82). -/
def State.startSounding (s : State) (c : CallId) (h : Handset) (load : Nat) : State :=
  s.setSounding h.riser (s.ring.sounding[h.riser] ++ [{ node := h.node, call := c, load := load }])

/-- A handset leaves its riser's sounding set; S falls by its admitted load. -/
def State.stopSounding (s : State) (h : Handset) : State :=
  s.setSounding h.riser (s.ring.sounding[h.riser].filter fun x => x.node != h.node)

/-- One member judged at an ON segment start (R82). -/
def admitOne (c : CallId) (m : Member) (s : State) : Member × State :=
  let load := (s.handsetEntry m.handset).load
  if s.soundSum m.handset.riser + load ≤ s.beff m.handset.riser then
    ({ m with sounding := true, load := load },
     (s.startSounding c m.handset load).indicate m.handset (.ring .sound))
  else (m.skip, s.indicate m.handset (.ring .silent))

/-- The members judged one at a time in list order (R82). -/
def admitMembers (c : CallId) : List Member → State → List Member × State
  | [], s => ([], s)
  | m :: ms, s =>
    let (m', s1) := admitOne c m s
    let (ms', s2) := admitMembers c ms s1
    (m' :: ms', s2)

/-- An ON segment start of a call (R82). -/
def State.admitRing (s : State) (c : CallId) : State :=
  match s.call? c with
  | some x =>
    let (ms, s1) := admitMembers c x.ringSet s
    s1.modCall c fun y => { y with ringSet := ms }
  | none => s

/-- RING QUIET to each member and every sounding one out of the sounding set (R86). DESIGN CHOICE: the members are taken
in the order of the ring set's list, so their RING QUIETs join the indication queue in that order; R86 states none
(notes/assumptions/54.md). -/
def quietMembers : List Member → State → State
  | [], s => s
  | m :: ms, s => quietMembers ms ((s.stopSounding m.handset).indicate m.handset (.ring .quiet))

/-- The end of an ON segment of a call (R86). -/
def State.endSounding (s : State) (c : CallId) : State :=
  match s.call? c with
  | some x =>
    (quietMembers x.ringSet s).modCall c fun y => { y with ringSet := y.ringSet.map Member.silenced }
  | none => s

/-- Milliseconds of a number of ring units (spec/00_scope.md, Units and numbers). -/
def ringMs (units : Nat) : Nat := units * 50

/-- The profile a call rings, as it stands (R46). -/
def State.profileOf (s : State) (x : Call) : Profile := s.dir.profiles[x.params.profile]

/-- A segment of a call's cadence starts with the duration its profile has now; the start of an ON segment admits the
members (R77, R82). -/
def State.startSegment (s : State) (c : CallId) (g : Segment) : State :=
  let s1 := s.modCall c fun x => { x with segment := some (g, ringMs ((s.profileOf x).units g)) }
  if g.isOn then s1.admitRing c else s1

/-- A call's cadence starts at on1 with cycles completed 0 (R76). -/
def State.startCadence (s : State) (c : CallId) : State :=
  (s.modCall c fun x => { x with cycles := 0 }).startSegment c .on1

/-- Every member out of its riser's sounding set (R79). -/
def silenceMembers : List Member → State → State
  | [], s => s
  | m :: ms, s => silenceMembers ms (s.stopSounding m.handset)

/-- The skipped segments of the members (R79). -/
def skippedOf : List Member → Nat
  | [] => 0
  | m :: ms => m.skipped + skippedOf ms

/-- A call's cadence ends at whatever point it has reached (R79): its sounding members leave the sounding set, the
skipped segments pass to the skipped total, the cadence position is cleared. -/
def State.stopCadence (s : State) (c : CallId) : State :=
  match s.call? c with
  | some x =>
    (silenceMembers x.ringSet s).modCall c fun y =>
      { y with
        ringSet := y.ringSet.map fun m => { m.silenced with skipped := 0 }
        skippedTotal := satAdd y.skippedTotal (skippedOf y.ringSet)
        segment := none
        cycles := 0 }
  | none => s

/-- A member withdrawn from a call's ring set (R87): out of the sounding set, its skipped segments to the skipped
total, no indication. -/
def State.withdraw (s : State) (c : CallId) (h : Handset) : State :=
  (s.stopSounding h).modCall c fun x =>
    { x with
      skippedTotal := satAdd x.skippedTotal (skippedOf (x.ringSet.filter fun m => m.handset == h))
      ringSet := x.ringSet.filter fun m => m.handset != h }

/-- A member stopped by cutback (R84), its place in the sounding set already given up. -/
def State.cutMember (s : State) (r : Riser) (x : Sounding) : State :=
  let h : Handset := { riser := r, node := x.node }
  (s.modCall x.call fun y =>
    { y with ringSet := y.ringSet.map fun m => if m.handset = h then m.skip else m }).indicate h (.ring .silent)

/-- The sounding set cut back from its newest end, given newest first, until it fits the budget (R84). -/
def cutNewest (r : Riser) (budget : Nat) : List Sounding → State → State
  | [], s => s.setSounding r []
  | x :: xs, s =>
    if loadSum (x :: xs) ≤ budget then s.setSounding r (x :: xs).reverse
    else cutNewest r budget xs (s.cutMember r x)

/-- Cutback of a riser when S is above Beff (R81, R84). -/
def State.cutback (s : State) (r : Riser) : State :=
  if s.soundSum r ≤ s.beff r then s else cutNewest r (s.beff r) s.ring.sounding[r].reverse s

/-- The ring percent pushed: Beff is recomputed and cut back to on the four risers in order (R81). -/
def State.pushPercent (s : State) (p : Nat) : State :=
  allRisers.foldl State.cutback { s with ring := { s.ring with percent := p } }

/-- The members of the calls whose handsets were sounding on a riser that goes off (R85): sounding no, load 0. -/
def State.silenceRiser (s : State) (r : Riser) : State :=
  allCalls.foldl (fun s c =>
    s.modCall c fun x =>
      { x with ringSet := x.ringSet.map fun m => if m.handset.riser = r then m.silenced else m })
    (s.setSounding r [])

end Sys2Proof.Machine
end

