-- ==== Sys2Proof/Machine/Slots.lean ====
section
/-! DEFINITION. The slot arbiter's shared operations (spec/03): grants and returns, wait lists, the choice of a
candidate and of a pre-emption victim, and the audio crosspoint. -/

namespace Sys2Proof.Machine

open Sys2Proof

/-! ### Slots -/

/-- A slot granted to a call (R49): the holder recorded, any reservation of it removed, the slot at the end of the
riser's grant order, and the pair among the call's slots. -/
def State.grant (s : State) (r : Riser) (k : Slot) (c : CallId) : State :=
  (s.modSlots r fun a =>
    { a with cells := put a.cells k { holder := some c, reserved := none }, order := a.order ++ [k] }).modCall c
    fun x => { x with slots := x.slots ++ [(r, k)] }

/-- The lowest FREE unreserved slot of a riser granted to a call (R49). -/
def State.grantLowest (s : State) (c : CallId) (r : Riser) : State :=
  match s.arb.risers[r].freeSlot with
  | some k => s.grant r k c
  | none => s

/-- One slot of each riser granted to a call, together (R52). -/
def State.grantAll (s : State) (c : CallId) (rs : List Riser) : State :=
  rs.foldl (fun s r => s.grantLowest c r) s

/-- A slot returned to the arbiter (R29): FREE, out of the grant order, any reservation kept (R69), and a grant event
due on its riser (R60). -/
def State.freeSlot (s : State) (p : Riser × Slot) : State :=
  let s1 := s.modSlots p.1 fun a =>
    { a with cells := upd a.cells p.2 fun k => { k with holder := none }, order := a.order.filter fun j => j != p.2 }
  { s1 with arb := { s1.arb with due := s1.arb.due ++ [p.1] } }

/-- A call returns all its slots (R25, R29). DESIGN CHOICE: the grant events of a call that returns slots of two risers
are due in the order of its slots, that is the order in which they were granted; the spec gives none
(notes/assumptions/37.md). -/
def State.returnSlots (s : State) (c : CallId) : State :=
  match s.call? c with
  | some x => (x.slots.foldl State.freeSlot s).modCall c fun y => { y with slots := [] }
  | none => s

/-- Every reservation for a call dropped (R70). -/
def State.dropReservations (s : State) (c : CallId) : State :=
  { s with arb := { s.arb with risers := updAll s.arb.risers fun _ a =>
      { a with cells := updAll a.cells fun _ k => if k.reserved = some c then { k with reserved := none } else k } } }

/-! ### Wait lists -/

/-- A call's place in a list kept by arrival stamp (R56): before the first call whose stamp is later than its own. -/
def insertByStamp (stampOf : CallId → BitVec 16) (c : CallId) : List CallId → List CallId
  | [] => [c]
  | x :: xs => if earlier (stampOf c) (stampOf x) then c :: x :: xs else x :: insertByStamp stampOf c xs

/-- A record's arrival stamp. -/
def State.stampOf (s : State) (c : CallId) : BitVec 16 :=
  match s.call? c with
  | some x => x.stamp
  | none => 0

/-- A call joins a riser's wait list (R56). -/
def State.joinWait (s : State) (r : Riser) (c : CallId) : State :=
  s.modSlots r fun a => { a with wait := insertByStamp s.stampOf c a.wait }

/-- A call leaves a riser's wait list (R57). -/
def State.leaveWait (s : State) (r : Riser) (c : CallId) : State :=
  s.modSlots r fun a => { a with wait := a.wait.filter fun d => d != c }

/-- A record's effective level (R58). -/
def State.levelOf (s : State) (c : CallId) : Nat :=
  match s.call? c with
  | some x => x.level
  | none => 0

/-- The call of highest level, the one nearest the head among equals (R62, R100). -/
def bestOf (level : CallId → Nat) : List CallId → Option CallId
  | [] => none
  | c :: cs =>
    match bestOf level cs with
    | some d => if level c < level d then some d else some c
    | none => some c

/-- The riser besides `r` whose slot a waiting cross-riser call needs (R63). -/
def State.otherNeeded (s : State) (r : Riser) (c : CallId) : Option Riser :=
  match s.call? c with
  | some x => (s.neededRisers x).find? fun q => q != r
  | none => none

/-! ### Pre-emption -/

/-- The slots of a riser held by calls in ENDING without a reservation (R66). -/
def State.returning (s : State) (r : Riser) : Nat :=
  (allSlots.filter fun k =>
    s.arb.risers[r].cells[k].reserved.isNone &&
    match s.arb.risers[r].cells[k].holder with
    | some c =>
      match s.call? c with
      | some x => x.state == .ending
      | none => false
    | none => false).length

/-- Whether a call may be chosen as the victim of a requester with the given base level (R67). -/
def State.mayBeVictim (s : State) (base : Nat) (c : CallId) : Bool :=
  match s.call? c with
  | some x => x.state != .ending && !x.params.preempt && x.params.base < base
  | none => false

/-- A record's latched base level. -/
def State.baseOf (s : State) (c : CallId) : Nat :=
  match s.call? c with
  | some x => x.params.base
  | none => 0

/-- The victim among the slots of a grant order, oldest first: the lowest base level, the latest in the order among
equals (R67). -/
def State.victimIn (s : State) (r : Riser) (base : Nat) : List Slot → Option (Slot × CallId)
  | [] => none
  | k :: ks =>
    match s.arb.risers[r].cells[k].holder with
    | some c =>
      if s.mayBeVictim base c then
        match s.victimIn r base ks with
        | some (j, d) => if s.baseOf c < s.baseOf d then some (k, c) else some (j, d)
        | none => some (k, c)
      else s.victimIn r base ks
    | none => s.victimIn r base ks

/-- Whether a requester on a riser seeks a victim: the slots that will come back do not bring the riser below its
usable count (R66). -/
def State.seeksVictim (s : State) (r : Riser) : Bool :=
  s.returning r < s.arb.risers[r].held + 1 - s.arb.usable

/-- The victim's slot marked as reserved for the requester (R68). -/
def State.reserve (s : State) (r : Riser) (k : Slot) (c : CallId) : State :=
  s.modSlots r fun a => { a with cells := upd a.cells k fun x => { x with reserved := some c } }

/-! ### The audio crosspoint -/

/-- Whether an endpoint belongs to a call (R72). -/
def State.owns (s : State) (c : CallId) : Endpoint → Bool
  | .lane e =>
    match s.call? c with
    | some x => x.origin == .entrance e
    | none => false
  | .line l => s.desk.lines[l].call? == some c
  | .slot r k => s.arb.risers[r].cells[k].holder == some c

/-- A connection made for a call (R72): when both endpoints belong to it, it does not have the connection already, and
there is room (R73). -/
def State.connect (s : State) (c : CallId) (a b : Endpoint) : State :=
  let x : Connection := { a := a, b := b, call := c }
  if s.owns c a && s.owns c b && !s.arb.cross.elem x && decide (s.arb.cross.length < 12) then
    s.setCross (s.arb.cross ++ [x])
  else s

/-- Every connection of a call broken (R27, R74). -/
def State.breakCall (s : State) (c : CallId) : State := s.setCross (s.arb.cross.filter fun x => x.call != c)

/-- The console connection of a line broken (R74). -/
def State.breakLine (s : State) (l : LineNo) : State :=
  s.setCross (s.arb.cross.filter fun x => x.a != .line l && x.b != .line l)

/-- Whether an endpoint is a slot of a riser. -/
def Endpoint.onRiser (r : Riser) : Endpoint → Bool
  | .slot q _ => q == r
  | _ => false

/-- The connections that use a riser's slots broken (R51, R74). -/
def State.breakRiser (s : State) (r : Riser) : State :=
  s.setCross (s.arb.cross.filter fun x => !x.a.onRiser r && !x.b.onRiser r)

/-- The console connection of a line asked for, for its call in TALK (R97, R101, R103, R20): the line's audio to the
entrance's lane, or to the slot of the call's handset. -/
def State.connectConsole (s : State) (l : LineNo) (c : CallId) : State :=
  match s.call? c with
  | some x =>
    match x.origin with
    | .entrance e => s.connect c (.line l) (.lane e)
    | .handset h =>
      match x.slotOn h.riser with
      | some k => s.connect c (.line l) (.slot h.riser k)
      | none => s
    | .line _ =>
      match x.answering with
      | some h =>
        match x.slotOn h.riser with
        | some k => s.connect c (.line l) (.slot h.riser k)
        | none => s
      | none => s
  | none => s

end Sys2Proof.Machine
end

