-- ==== Sys2Proof/Machine/Calls.lean ====
section
/-! DEFINITION. The call controller's shared operations (spec/01), with the grant events, slot requests and claims they
set off (spec/03): ENDING and completion, the desk queue, entry into TALK, forwarding, admission, and `State.cascade`,
which takes what one event sets off, one task at a time, until nothing is left. -/

namespace Sys2Proof.Machine

open Sys2Proof

/-! ### ENDING and completion -/

/-- The target code a notice or a query carries (R30, R179): the apartment code of the target entry, the requested code
as received, or 0 for DESK. -/
def State.targetCode (s : State) (x : Call) : BitVec 16 :=
  match x.target with
  | .apartment i =>
    match s.dir.entries[i] with
    | some a => a.code
    | none => 0
  | .code c => c
  | .desk => 0

/-- The answering party of a call: its answering handset, else the console line that answered it (R30). -/
def Call.party (x : Call) : Option Origin :=
  if x.answered then
    match x.answering with
    | some h => some (.handset h)
    | none => x.line.map .line
  else none

/-- The contents of a call's CALL-END notice (R30). -/
def State.callEndOf (s : State) (c : CallId) (x : Call) : CallEnd :=
  { record := c, cls := x.cls, origin := x.origin, targetCode := s.targetCode x, targetDesk := x.target == .desk,
    cause := x.cause.getD .completed, forwardStep := x.forwardStep, party := x.party, latency := x.latency,
    talk := x.talkSeconds, doorReleased := x.doorReleased, skipped := x.skippedTotal }

/-- A call completes (R29): its slots go back, each a grant event that is due, its CALL-END notice is offered and its
record becomes FREE. DESIGN CHOICE: the grant events are taken once all three steps are done; R29 does not say whether
they come before the notice (notes/assumptions/56.md). -/
def State.complete (s : State) (c : CallId) : State :=
  match s.call? c with
  | some x => ((s.returnSlots c).offer (.callEnd (s.callEndOf c x))).setCall c none
  | none => s

/-- Step 1 of R27: a WAITING call leaves its wait list, dropping its reservation (R70), or the desk queue, with a
WITHDRAW (R99). -/
def State.leaveWaiting (s : State) (c : CallId) (x : Call) : State :=
  match x.waitKind with
  | some (.riser r) => (s.leaveWait r c).dropReservations c
  | some .desk =>
    (s.setDeskQueue (s.desk.queue.filter fun d => d != c)).sendFrame .desk (.signal (.withdraw c))
  | none => s

/-- Every member sent RING-STOP and made IDLE, in the order of the ring set's list (DESIGN CHOICE,
notes/assumptions/54.md). -/
def stopMembers : List Member → State → State
  | [], s => s
  | m :: ms, s => stopMembers ms ((s.indicate m.handset .ringStop).setLine m.handset .idle)

/-- Step 3 of R27, and the first part of a ring timeout (R23): the cadence ends, the members are stopped, the ring set
becomes empty. -/
def State.stopRinging (s : State) (c : CallId) : State :=
  match s.call? c with
  | some x => (stopMembers x.ringSet (s.stopCadence c)).modCall c fun y => { y with ringSet := [] }
  | none => s

/-- The handset parties of a call (spec/01, 1.1). DESIGN CHOICE: the answering handset stands before the origin, so of a
NEIGHBOUR call within one riser its CLEAR and its TONE WARN are queued first; R21 and R27 give the two no order
(notes/assumptions/47.md). -/
def Call.parties (x : Call) : List Handset :=
  x.answering.toList ++
    match x.origin with
    | .handset h => if x.answered then [h] else []
    | _ => []

/-- Step 4 of R27: every CONNECTED party is sent CLEAR and made IDLE; the result names the parties whose CLEAR was
queued. -/
def clearParties (c : CallId) : List Handset → State → List Handset × State
  | [], s => ([], s)
  | h :: hs, s =>
    if s.lineState h = .connected then
      let (ps, s1) := clearParties c hs ((s.sendClear h c).setLine h .idle)
      (if s.reachable h then h :: ps else ps, s1)
    else clearParties c hs s

/-- Step 5 of R27: a handset origin that was not yet a party and is OFFHOOK is sent TONE BUSY. DESIGN CHOICE: the
origin of a desk claim that still waits is taken as not yet a party, since it has no slot and is not CONNECTED; 1.1
could be read to make it one at the console's answer (notes/assumptions/41.md). -/
def State.busyOrigin (s : State) (x : Call) : State :=
  match x.origin with
  | .handset h => if s.lineState h = .offhook then s.tone h .busy else s
  | _ => s

/-- Steps 6 and 7 of R27: PROGRESS ENDED to an entrance origin and to the console line holding the call, which is
freed. -/
def State.tellEnded (s : State) (x : Call) (cause : Cause) : State :=
  let s1 :=
    match x.origin with
    | .entrance e => s.tellEntrance e (.ended cause)
    | _ => s
  match x.consoleLine with
  | some l => (s1.tellLine l (.ended cause)).setConsole l .free
  | none => s1

/-- Whether an end is that of an unanswered URGENT call which raises URGENT-UNANSWERED (R28). -/
def Call.raisesUrgent (x : Call) (cause : Cause) : Bool :=
  x.cls == .urgent && !x.answered && cause != .cancelled && cause != .cleared && cause != .restart

/-- Steps 1 to 7 of R27 for a live call: the handset parties whose CLEAR was queued, and the state after them. -/
def State.unwind (s : State) (c : CallId) (x : Call) (cause : Cause) : List Handset × State :=
  let (pend, s1) := clearParties c x.parties (((s.leaveWaiting c x).breakCall c).stopRinging c)
  (pend, (s1.busyOrigin x).tellEnded x cause)

/-- A call in ENDING with its cause and its pending CLEARs (R27, R29). -/
def Call.toEnding (x : Call) (cause : Cause) (pend : List Handset) : Call :=
  { x with state := .ending, cause := some cause, waitKind := none, waitMs := 0, claim := false, pendingClears := pend }

/-- A live call not in ENDING ends with a cause (R27, R28); it completes at once when no CLEAR was queued (R29). A FREE
record and a call in ENDING are left as they are (R1, R26). -/
def State.endCall (s : State) (c : CallId) (cause : Cause) : State :=
  match s.call? c with
  | none => s
  | some x =>
    if x.state = .ending then s
    else
      let (pend, s1) := s.unwind c x cause
      let s2 := s1.modCall c fun y => y.toEnding cause pend
      let s3 := if x.raisesUrgent cause then s2.raise .urgentUnanswered else s2
      if pend.isEmpty then s3.complete c else s3

/-- A pending CLEAR of a call in ENDING is settled (R29); the last one completes the call. -/
def State.settleClear (s : State) (c : CallId) (h : Handset) : State :=
  match s.call? c with
  | some x =>
    if x.state = .ending ∧ x.pendingClears.elem h then
      let left := x.pendingClears.erase h
      let s1 := s.modCall c fun y => { y with pendingClears := left }
      if left.isEmpty then s1.complete c else s1
    else s
  | none => s

/-! ### The desk queue and entry into TALK -/

/-- A call joins the desk queue (R16, R98): WAITING for DESK from now, OFFER to the console, and WAITING told to its
origin (R18). -/
def State.joinDesk (s : State) (c : CallId) : State :=
  let s1 := s.modCall c fun x =>
    { x with state := .waiting, waitKind := some .desk, waitMs := 0, target := .desk,
             offerMs := some (x.offerMs.getD 0) }
  let s2 := s1.setDeskQueue (insertByStamp s1.stampOf c s1.desk.queue)
  match s2.call? c with
  | some x => (s2.sendFrame .desk (.signal (.offer c x.cls x.origin x.level))).tellWaiting x
  | none => s2

/-- The state a call enters at TALK: HELD when its console line is HELD (R97). -/
def State.talkState (s : State) (x : Call) : CallState :=
  match x.consoleLine with
  | some l => if s.desk.lines[l].isActive then .talk else .held
  | none => .talk

/-- The audio connection of an answered ringing call (step 8 of R20). -/
def State.connectAnswered (s : State) (c : CallId) (x : Call) (h : Handset) : State :=
  match x.origin with
  | .entrance e =>
    match x.slotOn h.riser with
    | some k => s.connect c (.lane e) (.slot h.riser k)
    | none => s
  | .handset o =>
    if o.riser = h.riser then s
    else
      match x.slotOn h.riser, x.slotOn o.riser with
      | some k, some j => s.connect c (.slot h.riser k) (.slot o.riser j)
      | _, _ => s
  | .line l => if s.desk.lines[l].isActive then s.connectConsole l c else s

/-- A handset party becomes CONNECTED and is sent SLOT with the call's slot on its riser (steps 5 and 7 of R20). -/
def State.joinParty (s : State) (x : Call) (h : Handset) : State :=
  let s1 := s.setLine h .connected
  match x.slotOn h.riser with
  | some k => s1.sendSlot h k
  | none => s1

/-- CONNECTED told to an entrance or console-line origin (step 9 of R20). -/
def State.tellConnected (s : State) (x : Call) : State :=
  match x.origin with
  | .entrance e => s.tellEntrance e .connected
  | .line l => s.tellLine l .connected
  | .handset _ => s

/-- HOOK-OFF from a ring set member answers the call (R20). -/
def State.answer (s : State) (c : CallId) (h : Handset) : State :=
  match s.call? c with
  | none => s
  | some x =>
    let s1 := (s.stopCadence c).modCall c fun y =>
      { y with state := s.talkState x, latency := some (tenths (x.offerMs.getD 0)), offerMs := none,
               answering := some h, ringSet := [], talkMs := some 0 }
    let s2 := s1.indicate h .ringStop
    let s3 := stopMembers (x.ringSet.filter fun m => m.handset != h) s2
    let s4 := s3.joinParty x h
    let s5 :=
      match x.origin with
      | .handset o => s4.joinParty x o
      | _ => s4
    (s5.connectAnswered c x h).tellConnected x

/-- A desk claim is granted (R64, R103): its origin handset becomes CONNECTED and is sent SLOT, talk elapsed starts,
the line is told, and the console connection is made when the line is ACTIVE. -/
def State.claimGranted (s : State) (c : CallId) : State :=
  match s.call? c with
  | none => s
  | some x =>
    let s1 := s.modCall c fun y =>
      { y with state := s.talkState x, claim := false, waitKind := none, waitMs := 0, talkMs := some 0 }
    let s2 :=
      match x.origin with
      | .handset o => s1.joinParty x o
      | _ => s1
    match x.consoleLine with
    | some l =>
      let s3 := s2.tellLine l .connected
      if s.desk.lines[l].isActive then s3.connectConsole l c else s3
    | none => s2

/-! ### Forwarding -/

/-- Whether a desk step or check 9 would let a call join the desk queue (R16, R24). -/
def State.deskTakes (s : State) (x : Call) : Bool :=
  s.deskAvailable && decide (s.desk.queue.length < 8) && x.params.queue != 0

/-- Whether a forward step is usable for a call now (R24). -/
def State.stepUsable (s : State) (x : Call) : Step → Bool
  | .apartment i =>
    match s.dir.entries[i] with
    | some a => !a.hasPrivacy && !(s.ringable i).isEmpty && s.feedOn a.riser
    | none => false
  | .desk =>
    s.deskTakes x &&
    match x.origin with
    | .line _ => false
    | _ => true

/-- The first usable of the steps considered from a chain position, and the position after it; each step considered
advances the position (R24). -/
def scanChain (usable : Step → Bool) : List Step → Nat → Option Step × Nat
  | [], p => (none, p)
  | x :: xs, p => if usable x then (some x, p + 1) else scanChain usable xs (p + 1)

/-- The forward chain that governs a call, from its chain position (R24, R37). -/
def State.chainLeft (s : State) (x : Call) : List Step :=
  match x.original with
  | some i =>
    match s.dir.entries[i] with
    | some a => a.chain.drop x.chainPos
    | none => []
  | none => []

/-- The target of a step. -/
def Step.target : Step → Target
  | .apartment i => .apartment i
  | .desk => .desk

/-- A call looks for its next forward step (R24): the step taken, if any, with the chain position, forward step and
target that follow. -/
def State.takeStep (s : State) (c : CallId) : Option Step × State :=
  match s.call? c with
  | some x =>
    match scanChain (s.stepUsable x) (s.chainLeft x) x.chainPos with
    | (some st, p) =>
      (some st, s.modCall c fun y =>
        { y with chainPos := p, forwardStep := y.forwardStep + 1, target := st.target })
    | (none, p) => (none, s.modCall c fun y => { y with chainPos := p })
  | none => (none, s)

/-! ### What one event sets off -/

/-- The tasks one event may set off: a grant event on a riser (R60, R61), one choice of it with the calls skipped so
far, the look at the other risers when it ends with room (R65), an entry into RINGING (R19), a ring timeout (R23) and a
slot request (R52, R53). `follow` is false for a grant event taken under R65, which leads to no further one. -/
inductive Task where
  | grantEvent (r : Riser) (follow : Bool)
  | choose (r : Riser) (skipped : List CallId) (follow : Bool)
  | lookAt (r : Riser) (others : List Riser)
  | ring (c : CallId)
  | ringTimeout (c : CallId)
  | request (c : CallId)
  deriving DecidableEq, Repr

/-- A call leaves a wait list because its slots were granted (R57, R64); a reservation it still has elsewhere is dropped
(R70). -/
def State.leaveGranted (s : State) (r : Riser) (c : CallId) : State :=
  ((s.leaveWait r c).dropReservations c).modCall c fun x => { x with waitKind := none, waitMs := 0 }

/-- A granted call handed over to the call controller (R64): a desk claim enters TALK, another call RINGING. -/
def State.handOver (s : State) (c : CallId) : State × List Task :=
  match s.call? c with
  | some x => if x.claim then (s.claimGranted c, []) else (s, [.ring c])
  | none => (s, [])

/-- A reserved FREE slot served to its requester (R61, R69). -/
def State.serveReservation (s : State) (r : Riser) (k : Slot) (c : CallId) : State × List Task :=
  if s.arb.risers[r].wait.elem c then ((s.grant r k c).leaveGranted r c).handOver c
  else (s.dropReservations c, [])

/-- A chosen candidate dealt with (R62, R63): granted, moved to the other riser's list, or skipped. The result says
which calls are skipped from now on. DESIGN CHOICE: where the other riser has room and a FREE reserved slot whose grant
event is due and not yet taken, the candidate is granted an unreserved slot of it, ahead of that reservation, and the
riser counts as short when it has no unreserved one (notes/assumptions/39.md). -/
def State.dealWith (s : State) (r : Riser) (c : CallId) (skipped : List CallId) : State × List Task × List CallId :=
  match s.otherNeeded r c with
  | none =>
    let (s1, ts) := ((s.grantLowest c r).leaveGranted r c).handOver c
    (s1, ts, skipped)
  | some y =>
    if s.canGrant y then
      let (s1, ts) := (((s.grantLowest c r).grantLowest c y).leaveGranted r c).handOver c
      (s1, ts, skipped)
    else if s.arb.risers[y].wait.length < 8 then
      (((s.leaveWait r c).joinWait y c).modCall c fun x => { x with waitKind := some (.riser y) }, [], skipped)
    else (s, [], c :: skipped)

/-- One choice of a grant event (R61, R62). DESIGN CHOICE: whether the held count has reached the usable count is looked
at when the next choice is to be made. So where the grant that reached it is undone by the granted call's own ring
timeout, which returns the slot (R19, R23, R25), the event goes on with the calls it has already skipped left out, and
does not end; R61 does not speak of a count that is reached for that long (notes/assumptions/60.md). -/
def State.choose (s : State) (r : Riser) (skipped : List CallId) (follow : Bool) : State × List Task :=
  if s.hasRoom r then
    match s.arb.risers[r].reservedSlot with
    | some (k, c) =>
      let (s1, ts) := s.serveReservation r k c
      (s1, ts ++ [.choose r skipped follow])
    | none =>
      match bestOf s.levelOf (s.arb.risers[r].wait.filter fun c => !skipped.elem c) with
      | some c =>
        let (s1, ts, skipped') := s.dealWith r c skipped
        (s1, ts ++ [.choose r skipped' follow])
      | none => (s, if follow then [.lookAt r (allRisers.filter fun z => z != r)] else [])
  else (s, [])

/-- Whether a riser with room has a waiting cross-riser candidate that needs riser `r` (R65). -/
def State.wantsRiser (s : State) (r z : Riser) : Bool :=
  s.hasRoom z && s.arb.risers[z].wait.any fun c => s.otherNeeded z c == some r

/-- The ring set's members join: line state RINGING and SHOW with the call's origin (R19), in the order of the ring
set's list (DESIGN CHOICE, notes/assumptions/54.md). -/
def showMembers (o : Origin) : List Handset → State → State
  | [], s => s
  | h :: hs, s => showMembers o hs ((s.setLine h .ringing).indicate h (.display o))

/-- A new ring set member (R19). -/
def Member.fresh (h : Handset) : Member := { handset := h, sounding := false, load := 0, skipped := 0 }

/-- Entry into RINGING (R19): the ring set is resolved afresh; an empty one is a ring timeout at once. -/
def State.enterRinging (s : State) (c : CallId) : State × List Task :=
  match s.call? c with
  | none => (s, [])
  | some x =>
    let hs :=
      match x.target with
      | .apartment i => s.ringable i
      | _ => []
    let s1 := s.modCall c fun y =>
      { y with state := .ringing, waitKind := none, waitMs := 0, ringSet := hs.map Member.fresh, segment := none,
               cycles := 0, offerMs := some (y.offerMs.getD 0) }
    if hs.isEmpty then (s1, [.ringTimeout c])
    else (((showMembers x.origin hs s1).startCadence c).tellRinging x, [])

/-- A forward step taken by a ringing call (R25). For an apartment step with new slots the grant events of the slots
returned come before the new request, as R25 has it. DESIGN CHOICE: for a DESK step they come after the call has joined
the desk queue; R25 does not say which is first (notes/assumptions/56.md). -/
def State.forward (s : State) (c : CallId) (st : Step) : State × List Task :=
  match st with
  | .desk => ((s.returnSlots c).joinDesk c, [])
  | .apartment _ =>
    match s.call? c with
    | some x =>
      if (s.neededRisers x).all fun r => (x.slotOn r).isSome then (s, [.ring c])
      else (s.returnSlots c, [.request c])
    | none => (s, [])

/-- A ring timeout (R23): the ringing is stopped, and the call forwards or ends NO-ANSWER. -/
def State.ringTimeout (s : State) (c : CallId) : State × List Task :=
  match s.call? c with
  | none => (s, [])
  | some x =>
    if x.state = .ringing then
      let s1 := s.stopRinging c
      if x.params.forward then
        match s1.takeStep c with
        | (some st, s2) => s2.forward c st
        | (none, s2) => (s2.endCall c .noAnswer, [])
      else (s1.endCall c .noAnswer, [])
    else (s, [])

/-- Pre-emption considered for a call that has just joined a riser's list (R66 to R68). -/
def State.preempt (s : State) (r : Riser) (c : CallId) : State :=
  match s.call? c with
  | some x =>
    if x.params.preempt && (s.neededRisers x).length == 1 && s.seeksVictim r then
      match s.victimIn r x.params.base s.arb.risers[r].order with
      | some (k, v) => (s.reserve r k c).endCall v .preempted
      | none => s
    else s
  | none => s

/-- The list a request that cannot be granted chooses: the target riser's when that riser is short, else the origin
riser's (R53). DESIGN CHOICE: when no needed riser is short, and one of them has only reserved slots FREE, their grant
event still due, the list is the target riser's, also where the origin riser is the one without a slot to grant; R53
names no list for this case (notes/assumptions/53.md). -/
def State.chosenList (s : State) (rs : List Riser) : Option Riser :=
  match rs.find? fun r => !s.hasRoom r with
  | some r => some r
  | none => rs.head?

/-- A request placed in a riser's wait list (step 4 of R53). -/
def State.placeInWait (s : State) (r : Riser) (c : CallId) : State :=
  (s.modCall c fun x => { x with state := .waiting, waitKind := some (.riser r), waitMs := 0 }).joinWait r c

/-- A slot request of a call with an apartment target (R17, R52, R53). -/
def State.request (s : State) (c : CallId) : State × List Task :=
  match s.call? c with
  | none => (s, [])
  | some x =>
    let rs := s.neededRisers x
    if rs.any fun r => !s.feedOn r then (s.endCall c .noPath, [])
    else if !rs.isEmpty && rs.all s.canGrant then (s.grantAll c rs, [.ring c])
    else if x.params.queue = 0 then (s.endCall c .noPath, [])
    else
      match s.chosenList rs with
      | none => (s.endCall c .noPath, [])
      | some r =>
        if s.arb.risers[r].wait.length < 8 then (((s.placeInWait r c).tellWaiting x).preempt r c, [])
        else (s.endCall c .noPath, [])

/-- One task done: the state after it and the tasks it sets off. -/
def doTask (t : Task) (s : State) : State × List Task :=
  match t with
  | .grantEvent r follow => if s.feedOn r then (s, [.choose r [] follow]) else (s, [])
  | .choose r skipped follow => s.choose r skipped follow
  | .lookAt _ [] => (s, [])
  | .lookAt r (z :: zs) =>
    if s.wantsRiser r z then (s, [.grantEvent z false, .lookAt r zs]) else (s, [.lookAt r zs])
  | .ring c => s.enterRinging c
  | .ringTimeout c => s.ringTimeout c
  | .request c => s.request c

/-- Whether a task is a grant event under way on a riser. -/
def Task.isChoiceOn (r : Riser) : Task → Bool
  | .choose q _ _ => q == r
  | _ => false

/-- The riser of a grant event that must wait, because another one on the same riser is under way among the tasks that
follow it (R60). -/
def Task.mustWait (t : Task) (ts : List Task) : Option Riser :=
  match t with
  | .grantEvent r _ => if ts.any (Task.isChoiceOn r) then some r else none
  | _ => none

/-- A grant event put after the one under way on the same riser (R60). DESIGN CHOICE: right behind its choices, so that
what the event under way does as it ends with room, the look at the other risers of R65 and the grant events that
follow from it, still comes before the deferred one; R60 and R65 do not say which is first, nor in which order two
deferred events on one riser are taken (notes/assumptions/57.md). -/
def putAfterChoice (r : Riser) (event : Task) : List Task → List Task
  | [] => [event]
  | t :: ts => if t.isChoiceOn r then t :: event :: ts else t :: putAfterChoice r event ts

/-- The grant events that are due put in front of the agenda, in the order they fell due (R60). -/
def placeDue (rs : List Riser) (ts : List Task) : List Task := (rs.map fun r => Task.grantEvent r true) ++ ts

/-- No grant event is due. -/
def State.clearDue (s : State) : State := { s with arb := { s.arb with due := [] } }

/-- The agenda taken one task at a time, what a task sets off before what was waiting, for at most `fuel` tasks. A grant
event on a riser that has one under way is put after it (R60), whether a returned slot made it due or R65. DESIGN
CHOICE: a call granted in a grant event that finds no handset to ring and forwards asks for its new slots before the
other choices of that event and before the grant event of the slot it returned on the same riser; R25 and R60 do not say
which comes first (notes/assumptions/48.md). DESIGN CHOICE: a grant event that arises on another riser inside one under
way is taken at once, before the choices still to be made there; R60 orders only the events of one riser
(notes/assumptions/50.md). -/
def runTasks : Nat → List Task → State → State
  | 0, _, s => s
  | _ + 1, [], s => s
  | fuel + 1, t :: ts, s =>
    match t.mustWait ts with
    | some r => runTasks fuel (putAfterChoice r t ts) s
    | none =>
      let (s1, new) := doTask t s
      runTasks fuel (placeDue s1.arb.due (new ++ ts)) s1.clearDue

/-- More tasks than one event can set off (notes/assumptions/10.md). -/
def cascadeFuel : Nat := 10000

/-- Everything an event has set off is taken: the grant events due and the tasks given. -/
def State.cascade (s : State) (ts : List Task) : State :=
  runTasks cascadeFuel (placeDue s.arb.due ts) s.clearDue

/-! ### Admission -/

/-- The record filled in once check 2 has passed (R13). -/
def State.newCall (s : State) (cls : CallClass) (o : Origin) (t : Target) : Call :=
  { state := .waiting, cls := cls, params := s.dir.classes[cls.index], origin := o, target := t, original := none,
    forwardStep := 0, chainPos := 0, stamp := s.ctl.stamp, waitKind := none, waitMs := 0, claim := false, slots := [],
    ringSet := [], segment := none, cycles := 0, answering := none, line := none, offerMs := none, latency := none,
    talkMs := none, doorReleased := false, skippedTotal := 0, cause := none, pendingClears := [] }

/-- A record taken (R1, R2, R13): filled in, and the arrival stamp counter advanced. -/
def State.takeRecord (s : State) (c : CallId) (x : Call) : State :=
  let s1 := s.setCall c (some x)
  { s1 with ctl := { s1.ctl with stamp := s1.ctl.stamp + 1 } }

/-- Check 9 (R16). -/
def State.checkDesk (s : State) (c : CallId) (x : Call) : State :=
  if !s.deskAvailable then s.endCall c .deskClosed
  else if s.deskTakes x then s.joinDesk c
  else s.endCall c .deskBusy

/-- Checks 7 and 8 have failed with a cause: the call forwards at once when its class may, and is refused otherwise
(R15). -/
def State.turnAway (s : State) (c : CallId) (x : Call) (cause : Cause) : State × List Task :=
  if x.params.forward then
    match s.takeStep c with
    | (some .desk, s1) => (s1.joinDesk c, [])
    | (some (.apartment _), s1) => (s1, [.request c])
    | (none, s1) => (s1.endCall c cause, [])
  else (s.endCall c cause, [])

/-- Checks 6 to 8 and 10 for a call whose apartment has been found (R14, R15, R17). -/
def State.checkApartment (s : State) (c : CallId) (x : Call) (i : DirIndex) : State × List Task :=
  let s1 := s.modCall c fun y => { y with target := .apartment i, original := some i }
  match s.dir.entries[i] with
  | none => (s1.endCall c .noSuch, [])
  | some a =>
    if !s.feedOn a.riser then (s1.endCall c .lineFault, [])
    else if a.hasPrivacy && x.params.hasPrivacy then s1.turnAway c x .isPrivate
    else if (s.ringable i).isEmpty then s1.turnAway c x .busy
    else (s1, [.request c])

/-- Whether a NEIGHBOUR call asks for its own caller's apartment (R14, R33). -/
def State.ownApartment (s : State) (x : Call) (i : DirIndex) : Bool :=
  match x.cls, x.origin with
  | .neighbour, .handset h => s.entryListing h == some i
  | _, _ => false

/-- Admission checks 3 to 10 for a record just taken (R14 to R18). -/
def State.admission (s : State) (c : CallId) : State × List Task :=
  match s.call? c with
  | none => (s, [])
  | some x =>
    if x.params.base = 0 then (s.endCall c .classOff, [])
    else if x.params.base ≤ s.ctl.floor then (s.endCall c .floor, [])
    else
      match x.target with
      | .desk => (s.checkDesk c x, [])
      | .apartment i => s.checkApartment c x i
      | .code code =>
        match s.entryOfCode code with
        | none => (s.endCall c .noSuch, [])
        | some i => if s.ownApartment x i then (s.endCall c .noSuch, []) else s.checkApartment c x i

/-- A refusal at check 1 or 2 told to a panel or a handset (R12). -/
def State.tellRefused (s : State) (o : Origin) (cause : Cause) : State :=
  match o with
  | .entrance e => s.tellEntrance e (.ended cause)
  | .handset h => s.tone h .busy
  | .line _ => s

/-- A call originated from an entrance or a handset (R11, R12). Before the first supply mode no call can be admitted
(R173), and the origination is not taken (notes/assumptions/9.md). -/
def State.originate (s : State) (cls : CallClass) (o : Origin) (t : Target) : State × List Task :=
  if s.supply.mode.isNone then (s, [])
  else if (s.originCall o).isSome then (s.tellRefused o .busy, [])
  else
    match s.freeRecord with
    | none => (s.tellRefused o .tableFull, [])
    | some c => (s.takeRecord c (s.newCall cls o t)).admission c

/-! ### Handsets that go LOST -/

/-- The cause with which a call ends when a handset of it is LOST (R4). -/
def State.lossCause (s : State) (r : Riser) : Cause := if s.feedOn r then .linkLost else .lineFault

/-- Whether a LOST handset ends a call: as its origin in WAITING or RINGING, or as its handset party in TALK or HELD
(R4). -/
def Call.losesWith (x : Call) (h : Handset) : Bool :=
  match x.state with
  | .waiting => x.origin == .handset h
  | .ringing => x.origin == .handset h
  | .talk => x.hasParty h
  | .held => x.hasParty h
  | .ending => false

/-- A member leaves a ring set before its call's cadence ends (R4, R9, R87); an emptied ring set is a ring timeout. -/
def State.leaveRingSet (s : State) (h : Handset) : State × List Task :=
  match s.findCall fun x => x.ringSet.any fun m => m.handset == h with
  | some c =>
    let s1 := s.withdraw c h
    match s1.call? c with
    | some x => (s1, if x.ringSet.isEmpty then [.ringTimeout c] else [])
    | none => (s1, [])
  | none => (s, [])

/-- A handset is reported LOST (R4). -/
def State.handsetLost (s : State) (h : Handset) : State × List Task :=
  let (s1, ts) := (s.setLine h .idle).leaveRingSet h
  match s1.findCall fun x => x.losesWith h with
  | some c => (s1.endCall c (s.lossCause h.riser), ts)
  | none => (s1, ts)

end Sys2Proof.Machine
end

