-- ==== Sys2Proof/Machine/Bus.lean ====
section
/-! DEFINITION. The riser controller (spec/06): the choice of the next use of the bus, polls and their replies, missed
polls, acknowledgements, the survey, and the meanings of the commands that are a reply window's outcome. -/

namespace Sys2Proof.Machine

open Sys2Proof

/-! ### The choice of the next use (R115 to R119) -/

/-- Whether a node is enrolled at its riser controller: PRESENT or LOST (R114). -/
def RiserControl.isEnrolled (u : RiserControl) (n : Node) : Bool := u.presence[n] != .absent

/-- The first enrolled address above the poll pointer. -/
def RiserControl.enrolledAbove (u : RiserControl) : Option Node :=
  match u.pointer with
  | some p => allNodes.find? fun n => decide (p < n) && u.isEnrolled n
  | none => none

/-- The enrolled address that follows the poll pointer, wrapping to the lowest (R116). -/
def RiserControl.nextRegular (u : RiserControl) : Option Node :=
  match u.enrolledAbove with
  | some n => some n
  | none => allNodes.find? u.isEnrolled

/-- The element that follows `p` in a list, none at its end. -/
def following (p : Node) : List Node → Option Node
  | [] => none
  | x :: xs => if x = p then xs.head? else following p xs

/-- The address that follows the attention position in list order, wrapping to the head (R117). -/
def RiserControl.nextAttention (u : RiserControl) : Option Node :=
  match u.attentionPos with
  | some p =>
    match following p u.attention with
    | some n => some n
    | none => u.attention.head?
  | none => u.attention.head?

/-- The address a RUNNING survey probes next: the lowest unenrolled one from its next address up (R128). -/
def RiserControl.nextProbe (u : RiserControl) : Option Node :=
  match u.survey with
  | some v => allNodes.find? fun n => decide (v.next ≤ n.val) && !u.isEnrolled n
  | none => none

/-- Whether either kind of extra poll applies (R115, R118). -/
def RiserControl.wantsExtra (u : RiserControl) : Bool := !u.attention.isEmpty || u.nextProbe.isSome

/-- Whether there is work that a poll pause does not hold back (R119). -/
def RiserControl.hasWork (u : RiserControl) : Bool :=
  !u.control.isEmpty || !u.indications.isEmpty || !u.attention.isEmpty

/-- The length of one use of the bus, a message with its reply window, in ms (R111). -/
def useLength : Nat := 2

/-- The kind of extra poll a turn does not name (R118). -/
def Turn.other : Turn → Turn
  | .attention => .survey
  | .survey => .attention

/-- An attention poll (R117, R118): the turn is toggled, whatever it named. -/
def RiserControl.attentionPoll (u : RiserControl) : RiserControl :=
  match u.nextAttention with
  | some n =>
    { u with attentionPos := some n, lastPoll := .extra, turn := u.turn.other, use := .attentionPoll n,
             useMs := useLength }
  | none => u

/-- A survey probe (R118, R128): the turn is toggled, whatever it named. -/
def RiserControl.surveyProbe (u : RiserControl) : RiserControl :=
  match u.nextProbe with
  | some n =>
    { u with survey := u.survey.map fun v => { v with next := n.val + 1 }, lastPoll := .extra, turn := u.turn.other,
             use := .probe n, useMs := useLength }
  | none => u

/-- An extra poll, of the one kind that applies or of the kind the turn names (R118). -/
def RiserControl.extraPoll (u : RiserControl) : RiserControl :=
  if u.attention.isEmpty then u.surveyProbe
  else if u.nextProbe.isNone then u.attentionPoll
  else
    match u.turn with
    | .attention => u.attentionPoll
    | .survey => u.surveyProbe

/-- A regular poll (R116). A riser with no enrolled address makes none: the choice passes to an extra poll when one
applies, and the bus is idle otherwise. DESIGN CHOICE: with nothing to probe either, the last poll becomes REGULAR
although no poll is made; the spec does not say what it is then (notes/assumptions/42.md). -/
def RiserControl.regularPoll (u : RiserControl) : RiserControl :=
  match u.nextRegular with
  | some n => { u with pointer := some n, lastPoll := .regular, use := .regularPoll n, useMs := useLength }
  | none =>
    if u.wantsExtra then u.extraPoll else { u with lastPoll := .regular, use := .idle, useMs := 0 }

/-- Whether a regular poll waits the poll pause first (R119). DESIGN CHOICE: a survey probe that stands in for the
regular poll of a riser with no enrolled address waits it too; R116 and R119 do not say (notes/assumptions/43.md). -/
def RiserControl.pausesFirst (u : RiserControl) : Bool :=
  u.pause != 0 && !u.hasWork && (u.nextRegular.isSome || u.nextProbe.isSome)

/-- The next use of a free bus (R115). -/
def RiserControl.choose (u : RiserControl) : RiserControl :=
  if !u.control.isEmpty then { u with controlTry := max 1 u.controlTry, use := .control, useMs := useLength }
  else if !u.indications.isEmpty then
    { u with indicationTry := max 1 u.indicationTry, use := .indication, useMs := useLength }
  else if u.lastPoll = .regular ∧ u.wantsExtra = true then u.extraPoll
  else if u.pausesFirst then { u with use := .pause, useMs := u.pause }
  else u.regularPoll

/-- A free bus takes its next use; a poll pause is abandoned when work has come (R115, R119). A bus whose use has been
settled is free when the 2 ms of that use are over (R111). While the all-node CLEAR of a warm restart is on the bus
nothing is chosen (R135). -/
def RiserControl.kick (u : RiserControl) : RiserControl :=
  if u.allClearMs ≠ 0 then u
  else
    match u.use with
    | .idle => if u.useMs = 0 then u.choose else u
    | .pause => if u.hasWork then u.choose else u
    | _ => u

/-- A riser whose feed is ON takes its next use if its bus is free (R115). -/
def State.kick (s : State) (r : Riser) : State :=
  if s.feedOn r then s.modRiser r RiserControl.kick else s

/-- Every free bus takes its next use. -/
def State.kickAll (s : State) : State := allRisers.foldl State.kick s

/-- What an event has set off is taken to its end, and every free bus takes its next use. -/
def State.settle (s : State) (ts : List Task) : State := (s.cascade ts).kickAll

/-! ### Presence and missed polls -/

/-- A node's presence and missed count written. -/
def State.putNode (s : State) (h : Handset) (p : Presence) (missed : Nat) : State :=
  s.modRiser h.riser fun u => { u with presence := put u.presence h.node p, missed := put u.missed h.node missed }

/-- The node a command is for. -/
def Command.node : Command → Node
  | .slot n _ => n
  | .clear n _ => n

/-- The call whose pending clear a command settles. -/
def Command.cleared : Command → Option CallId
  | .slot _ _ => none
  | .clear _ c => some c

/-- The calls whose CLEARs for a node wait in a control queue, oldest first. -/
def clearsFor (n : Node) (q : List Command) : List CallId :=
  (q.filter fun m => m.node == n).filterMap Command.cleared

/-- Every message for a node out of both queues, one in service given up (R122). -/
def RiserControl.removeNode (u : RiserControl) (n : Node) : RiserControl :=
  { u with
    control := u.control.filter fun m => m.node != n
    controlTry := if u.control.head?.map Command.node = some n then 0 else u.controlTry
    indications := u.indications.filter fun e => e.node != n
    indicationTry := if u.indications.head?.map IndicationEntry.node = some n then 0 else u.indicationTry }

/-- CLEARs reported dropped to the call controller (R29). -/
def State.dropClears (s : State) (h : Handset) (cs : List CallId) : State := cs.foldl (fun s c => s.settleClear c h) s

/-- A PRESENT node becomes LOST on a missed poll (R122); its missed count is already the value it reached. -/
def State.nodeLost (s : State) (h : Handset) : State × List Task :=
  let clears := clearsFor h.node s.risers[h.riser].control
  let s1 := (s.modRiser h.riser fun u =>
    { u.removeNode h.node with presence := put u.presence h.node .lost }).dropClears h clears
  (s1.offer (.node h true)).handsetLost h

/-- A missed poll of a node (R121): it counts for a PRESENT node alone. -/
def State.missPoll (s : State) (h : Handset) : State × List Task :=
  if s.presenceOf h = .present then
    let m := s.risers[h.riser].missed[h.node] + 1
    let s1 := s.putNode h .present m
    if s.feeds[h.riser].entry.missed ≤ m then s1.nodeLost h else (s1, [])
  else (s, [])

/-- A valid reply's effect on the node that sent it (R120): its missed count becomes 0, and a LOST node returns with a
NODE notice. -/
def State.nodeReplied (s : State) (h : Handset) : State :=
  if s.presenceOf h = .lost then (s.putNode h .present 0).offer (.node h false) else s.putNode h .present 0

/-- The counter a faulty reply raises (R113). -/
def State.countFault (s : State) (r : Riser) : WindowFault → State
  | .noReply => s
  | .badParity => s.modRiser r fun u => { u with parityErrors := bump u.parityErrors }
  | .notValid => s.modRiser r fun u => { u with wordErrors := bump u.wordErrors }

/-- The use under way is settled, by a reply or by the want of one. It still lasts for what is left of its 2 ms, and the
next one begins when it ends (R111). -/
def State.endUse (s : State) (r : Riser) : State := s.modRiser r fun u => { u with use := .idle }

/-! ### The survey -/

/-- A RUNNING survey ends when no unenrolled address remains to probe (R129). A probe under way is settled first. -/
def State.checkSurvey (s : State) (r : Riser) : State :=
  match s.risers[r].survey with
  | some v =>
    if s.risers[r].nextProbe.isNone then
      (s.modRiser r fun u => { u with survey := none }).offer (.survey r v.replied false)
    else s
  | none => s

/-- An address in a list kept in ascending order. -/
def insertNode (n : Node) : List Node → List Node
  | [] => [n]
  | x :: xs => if n < x then n :: x :: xs else if n = x then x :: xs else x :: insertNode n xs

/-- A probe's reply lists its address (R128). -/
def State.listProbed (s : State) (r : Riser) (n : Node) : State :=
  s.modRiser r fun u => { u with survey := u.survey.map fun v => { v with replied := insertNode n v.replied } }

/-! ### Commands and indications without a valid ACK -/

/-- The command in service failed an attempt (R123): it stays for a second one, or is dropped with a missed poll of its
node, a CLEAR being reported dropped. A node un-enrolled meanwhile has no second attempt (R114). DESIGN CHOICE: the
enrolment is looked at when the attempt fails and not before, so a node un-enrolled and enrolled again while the reply
window was open has its message's second attempt; R114 and R123 leave this open (notes/assumptions/55.md). -/
def State.commandFailed (s : State) (r : Riser) : State × List Task :=
  match s.risers[r].control with
  | [] => (s, [])
  | m :: rest =>
    if s.risers[r].controlTry < 2 ∧ s.risers[r].isEnrolled m.node then
      (s.modRiser r fun u => { u with controlTry := 2 }, [])
    else
      let h : Handset := { riser := r, node := m.node }
      let (s1, ts) := (s.modRiser r fun u => { u with control := rest, controlTry := 0 }).missPoll h
      (s1.dropClears h m.cleared.toList, ts)

/-- The indication in service failed an attempt (R123), a node's enrolment being looked at as for a command
(`State.commandFailed`, notes/assumptions/55.md). -/
def State.indicationFailed (s : State) (r : Riser) : State × List Task :=
  match s.risers[r].indications with
  | [] => (s, [])
  | m :: rest =>
    if s.risers[r].indicationTry < 2 ∧ s.risers[r].isEnrolled m.node then
      (s.modRiser r fun u => { u with indicationTry := 2 }, [])
    else
      (s.modRiser r fun u => { u with indications := rest, indicationTry := 0 }).missPoll { riser := r, node := m.node }

/-- The reply window under way closed without a valid reply: its fault is counted (R113) and the use is dealt with by
its kind (R121, R123, R128). Where no window is open nothing is judged. -/
def State.windowFailed (s : State) (r : Riser) (f : WindowFault) : State × List Task :=
  let s1 := (s.countFault r f).endUse r
  match s.risers[r].use with
  | .regularPoll n => s1.missPoll { riser := r, node := n }
  | .attentionPoll n => s1.missPoll { riser := r, node := n }
  | .probe _ => (s1.checkSurvey r, [])
  | .control => s1.commandFailed r
  | .indication => s1.indicationFailed r
  | .silent => (s, [])
  | .idle => (s, [])
  | .pause => (s, [])

/-! ### Replies to a POLL -/

/-- How an event reply or NONE naming a node is judged against the use under way (R113). -/
inductive Judged where
  | event
  | listed
  | notValid
  | disregarded
  deriving DecidableEq, Repr

/-- A reply of the first five kinds of R113 judged. -/
def BusUse.judge (u : BusUse) (n : Node) : Judged :=
  match u with
  | .regularPoll m => if m = n then .event else .notValid
  | .attentionPoll m => if m = n then .event else .notValid
  | .probe m => if m = n then .listed else .notValid
  | .control => .notValid
  | .indication => .notValid
  | .silent => .disregarded
  | .idle => .disregarded
  | .pause => .disregarded

/-- The reply to a POLL handed on (R120): the node has replied, and what it carries is taken by `event`. A node that
was un-enrolled while its poll was under way has nothing handed on (R114); one enrolled again since has
(DESIGN CHOICE, notes/assumptions/55.md). -/
def State.handOn (s : State) (h : Handset) (event : State → State × List Task) : State :=
  if s.presenceOf h = .absent then s.settle []
  else
    let (s1, ts) := event (s.nodeReplied h)
    s1.settle ts

/-- A reply of the first five kinds received from a node on a riser (R113, R120, R128). -/
def State.takeReply (s : State) (r : Riser) (n : Node) (event : State → State × List Task) : State :=
  match s.risers[r].use.judge n with
  | .event => (s.endUse r).handOn { riser := r, node := n } event
  | .listed => (((s.endUse r).listProbed r n).checkSurvey r).settle []
  | .notValid =>
    let (s1, ts) := s.windowFailed r .notValid
    s1.settle ts
  | .disregarded => s

/-- NONE (R120): a valid reply that hands nothing on. -/
def execNoneReply (r : Riser) (n : Node) (s : State) : Host.Outcome State Fault Refusal :=
  .next (s.takeReply r n fun t => (t, []))

/-- MISSED_POLL (R121): a POLL's reply window closes with no valid reply. -/
def execMissedPoll (r : Riser) (f : WindowFault) (s : State) : Host.Outcome State Fault Refusal :=
  match s.risers[r].use with
  | .regularPoll _ =>
    let (s1, ts) := s.windowFailed r f
    .next (s1.settle ts)
  | .attentionPoll _ =>
    let (s1, ts) := s.windowFailed r f
    .next (s1.settle ts)
  | _ => .next s

/-- SURVEY_PROBE (R128, R129): the probe under way draws a valid reply, or none. -/
def execSurveyProbe (r : Riser) (p : ProbeResult) (s : State) : Host.Outcome State Fault Refusal :=
  match s.risers[r].use, p with
  | .probe n, .replied => .next ((((s.endUse r).listProbed r n).checkSurvey r).settle [])
  | .probe _, .failed f =>
    let (s1, ts) := s.windowFailed r f
    .next (s1.settle ts)
  | _, _ => .next s

/-! ### Acknowledgements -/

/-- The message code of a command (spec/13, 13.5). -/
def Command.code : Command → Byte
  | .slot _ _ => 2
  | .clear _ _ => 3

/-- The message code of an indication (spec/13, 13.5). -/
def Indication.code : Indication → Byte
  | .ring _ => 4
  | .ringStop => 5
  | .tone _ => 6
  | .display _ => 7

/-- The node that acknowledged has missed count 0 (R123). -/
def State.ackNode (s : State) (h : Handset) : State :=
  if s.presenceOf h = .absent then s
  else s.modRiser h.riser fun u => { u with missed := put u.missed h.node 0 }

/-- The command in service acknowledged (R123): it leaves its queue, and a CLEAR settles its pending clear (R29). -/
def State.commandAcked (s : State) (r : Riser) : State :=
  match s.risers[r].control with
  | [] => s
  | m :: rest =>
    let h : Handset := { riser := r, node := m.node }
    ((s.modRiser r fun u => { u with control := rest, controlTry := 0 }).ackNode h).dropClears h m.cleared.toList

/-- The indication in service acknowledged (R123). -/
def State.indicationAcked (s : State) (r : Riser) : State :=
  match s.risers[r].indications with
  | [] => s
  | m :: rest =>
    (s.modRiser r fun u => { u with indications := rest, indicationTry := 0 }).ackNode { riser := r, node := m.node }

/-- The node and the message code an ACK must carry for the use under way (R113). -/
def RiserControl.expectedAck (u : RiserControl) : Option (Node × Byte) :=
  match u.use with
  | .control => u.control.head?.map fun m => (m.node, m.code)
  | .indication => u.indications.head?.map fun e => (e.node, e.content.code)
  | _ => none

/-- ACK (R123): a valid ACK settles the message in service; any other is not a valid reply to what was sent (R113). -/
def execAck (r : Riser) (n : Node) (code : Byte) (s : State) : Host.Outcome State Fault Refusal :=
  if s.risers[r].expectedAck = some (n, code) then
    if s.risers[r].use = .control then .next (((s.endUse r).commandAcked r).settle [])
    else .next (((s.endUse r).indicationAcked r).settle [])
  else
    match s.risers[r].use.judge n with
    | .disregarded => .next s
    | _ =>
      let (s1, ts) := s.windowFailed r .notValid
      .next (s1.settle ts)

/-- COMMAND_NO_ACK (R123): a command's or indication's reply window closes with no valid ACK. -/
def execCommandNoAck (r : Riser) (f : WindowFault) (s : State) : Host.Outcome State Fault Refusal :=
  match s.risers[r].use with
  | .control =>
    let (s1, ts) := s.windowFailed r f
    .next (s1.settle ts)
  | .indication =>
    let (s1, ts) := s.windowFailed r f
    .next (s1.settle ts)
  | _ => .next s

/-- POLL_PAUSE_END (R119): the pause has run out and the regular poll is made, whatever the survey. -/
def execPollPauseEnd (r : Riser) (s : State) : Host.Outcome State Fault Refusal :=
  if s.feedOn r && s.risers[r].use == .pause then .next (s.modRiser r RiserControl.regularPoll)
  else .next s

end Sys2Proof.Machine
end

