-- ==== Sys2Proof/Machine/Doors.lean ====
section
/-! DEFINITION. The door units (spec/08): release requests and the release run, the debounced contact, the door state,
and the meanings of their events. -/

namespace Sys2Proof.Machine

open Sys2Proof

/-- Milliseconds of a number of tenths. -/
def tenthMs (tenths : Nat) : Nat := tenths * 100

/-- Milliseconds of a number of seconds. -/
def secondMs (seconds : Nat) : Nat := seconds * 1000

/-! ### The release unit -/

/-- A DRIVE of a given width that starts now, with the delay the run was accepted with (R146, R147). -/
def Run.driving (delay width : Nat) : Run := { drive := true, delay := delay, width := width, ms := tenthMs width }

/-- The run of a release accepted now (R146). -/
def DoorEntry.newRun (d : DoorEntry) : Run :=
  if d.delay = 0 then .driving d.delay d.width
  else { drive := false, delay := d.delay, width := d.width, ms := tenthMs d.delay }

/-- A release request taken by a door unit (R146, R149): accepted in IDLE, ignored and counted otherwise. -/
def DoorUnit.request (d : DoorUnit) : Bool × DoorUnit :=
  match d.run with
  | none => (true, { d with run := some d.entry.newRun })
  | some _ => (false, { d with ignored := bump d.ignored })

/-- A release request sent to a door unit, and whether it was accepted (R146). -/
def State.releaseDoor (s : State) (e : Entrance) : Bool × State :=
  ((s.doors[e].request).1, s.modDoor e fun d => d.request.2)

/-- The run timer reaches 0 in DELAY: DRIVE starts (R147). -/
def DoorUnit.endDelay (d : DoorUnit) : DoorUnit :=
  match d.run with
  | some r => if r.drive then d else { d with run := some (.driving r.delay r.width) }
  | none => d

/-- The grace timer started at a number of tenths, stopped at 0. -/
def graceTimer (tenths : Nat) : Option Nat := if tenths = 0 then none else some (tenthMs tenths)

/-- The run timer reaches 0 in DRIVE: IDLE, and the grace timer starts (R147). -/
def DoorUnit.endDrive (d : DoorUnit) : DoorUnit :=
  match d.run with
  | some r => if r.drive then { d with run := none, grace := graceTimer d.entry.grace } else d
  | none => d

/-- DELAY_END (R147). -/
def execDelayEnd (e : Entrance) (s : State) : Host.Outcome State Fault Refusal :=
  .next (s.modDoor e DoorUnit.endDelay)

/-- DRIVE_END (R147). -/
def execDriveEnd (e : Entrance) (s : State) : Host.Outcome State Fault Refusal :=
  .next (s.modDoor e DoorUnit.endDrive)

/-- The grace timer runs out (R147). When a DRIVE has ended in the same millisecond and was taken first, the timer has
been started again and runs on (notes/assumptions/2.md). DESIGN CHOICE: that is told by the timer standing at its full
length, which is read from the door table as it stands at the expiry, so a write of the open grace in between decides
whether the expiry stops the timer (notes/assumptions/59.md). -/
def DoorUnit.endGrace (d : DoorUnit) : DoorUnit :=
  if d.grace = graceTimer d.entry.grace then d else { d with grace := none }

/-- GRACE_EXPIRY (R147). -/
def execGraceExpiry (e : Entrance) (s : State) : Host.Outcome State Fault Refusal :=
  .next (s.modDoor e DoorUnit.endGrace)

/-! ### The door state -/

/-- The state an opening gives the door (R151). -/
def DoorUnit.openState (d : DoorUnit) : DoorState := if d.authorised then .openAuth else .openForced

/-- The door as opened: its state, and the held timer started for an authorised opening (R151). -/
def DoorUnit.opened (d : DoorUnit) : DoorUnit :=
  { d with door := d.openState, held := if d.authorised then some (secondMs d.entry.heldLimit) else none }

/-- The debounced contact has changed to OPEN (R151). -/
def State.openDoor (s : State) (e : Entrance) : State :=
  let d := s.doors[e]
  let s1 := (s.modDoor e DoorUnit.opened).offer (.door e d.openState)
  if !d.authorised && d.entry.forced then s1.raise (.doorForced e) else s1

/-- The debounced contact has changed to CLOSED (R153). -/
def State.closeDoor (s : State) (e : Entrance) : State :=
  (s.modDoor e fun d => { d with door := .shut, held := none }).offer (.door e .shut)

/-- The debounced contact and last sample of a door written. -/
def State.putContact (s : State) (e : Entrance) (isOpen : Bool) : State :=
  s.modDoor e fun d => { d with lastSample := isOpen, contact := isOpen }

/-- DOOR_OPENING (R151): the second of two agreeing OPEN samples has changed the debounced contact. -/
def execDoorOpening (e : Entrance) (s : State) : Host.Outcome State Fault Refusal :=
  if s.doors[e].contact then .next s else .next ((s.putContact e true).openDoor e)

/-- DOOR_CLOSING (R153): the second of two agreeing CLOSED samples has changed the debounced contact. -/
def execDoorClosing (e : Entrance) (s : State) : Host.Outcome State Fault Refusal :=
  if s.doors[e].contact then .next ((s.putContact e false).closeDoor e) else .next s

/-- DOOR_CONTACT_SAMPLE (R150): the input read through the contact sense, the debounced contact, and the opening or
closing a change of it is. -/
def execDoorContactSample (e : Entrance) (high : Bool) (s : State) : Host.Outcome State Fault Refusal :=
  let d := s.doors[e]
  let x := d.entry.reads high
  if x = d.lastSample ∧ x ≠ d.contact then
    let s1 := s.putContact e x
    .next (if x then s1.openDoor e else s1.closeDoor e)
  else .next (s.modDoor e fun d => { d with lastSample := x })

/-- HELD_TIMER_EXPIRY (R152). DESIGN CHOICE: it acts on any OPEN-AUTH door, also when an event taken just before it, a
warm restart (R156) or a closing with a new opening, has started the held timer afresh (notes/assumptions/58.md). -/
def execHeldTimerExpiry (e : Entrance) (s : State) : Host.Outcome State Fault Refusal :=
  if s.doors[e].door = .openAuth then
    .next (((s.modDoor e fun d => { d with door := .openHeld, held := none }).offer (.door e .openHeld)).raise
      (.doorHeld e))
  else .next s

end Sys2Proof.Machine
end

