-- ==== Sys2Proof/Machine/Handsets.lean ====
section
/-! DEFINITION. Handset events (spec/01, 1.4): the meanings of the event replies, each read by the handset's line
state. An event reaches the call controller as the reply to a poll under way (`State.takeReply`). -/

namespace Sys2Proof.Machine

open Sys2Proof

/-- Whether another handset of the apartment that lists a handset is CONNECTED (R5). -/
def State.neighbourConnected (s : State) (h : Handset) : Bool :=
  match s.entryListing h with
  | some i =>
    match s.dir.entries[i] with
    | some a => a.handsets.any fun g => g != h && s.lineState g == .connected
    | none => false
  | none => false

/-- HOOK-OFF (R5). -/
def State.takeHookOff (s : State) (h : Handset) : State × List Task :=
  match s.lineState h with
  | .idle =>
    let s1 := s.setLine h .offhook
    (if s1.neighbourConnected h then s1.tone h .busy else s1, [])
  | .ringing =>
    match s.findCall fun x => x.ringSet.any fun m => m.handset == h with
    | some c => (s.answer c h, [])
    | none => (s, [])
  | .offhook => (s, [])
  | .connected => (s, [])

/-- The cause with which its origin ends a call (R22). -/
def Call.cancelCause (x : Call) : Cause := if x.connected then .completed else .cancelled

/-- A call is cancelled by its origin, or ended on its console line (R22, R107); a call in ENDING is not affected. -/
def State.cancelCall (s : State) (c : CallId) : State :=
  match s.call? c with
  | some x => s.endCall c x.cancelCause
  | none => s

/-- HOOK-ON (R6). -/
def State.takeHookOn (s : State) (h : Handset) : State × List Task :=
  match s.lineState h with
  | .offhook =>
    let s1 := s.setLine h .idle
    match s1.originCall (.handset h) with
    | some c => (s1.cancelCall c, [])
    | none => (s1, [])
  | .connected =>
    match s.findCall fun x => x.connected && x.hasParty h with
    | some c => (s.endCall c .completed, [])
    | none => (s, [])
  | .idle => (s, [])
  | .ringing => (s, [])

/-- KEY DOOR (R7). -/
def State.takeKeyDoor (s : State) (h : Handset) : State × List Task :=
  match s.lineState h, s.findCall fun x => x.connected && x.hasParty h with
  | .connected, some c =>
    match (s.call? c).map Call.origin with
    | some (.entrance e) =>
      let (accepted, s1) := s.releaseDoor e
      if accepted then
        (((s1.modCall c fun x => { x with doorReleased := true }).tone h .door).tellEntrance e .door, [])
      else (s1.tone h .reject, [])
    | _ => (s.tone h .reject, [])
  | _, _ => (s.tone h .reject, [])

/-- KEY DESK (R8). -/
def State.takeKeyDesk (s : State) (h : Handset) : State × List Task :=
  if s.lineState h = .offhook then s.originate .deskIn (.handset h) .desk else (s, [])

/-- DIAL (R8). -/
def State.takeDial (s : State) (h : Handset) (code : BitVec 16) : State × List Task :=
  if s.lineState h = .offhook then s.originate .neighbour (.handset h) (.code code) else (s, [])

/-- A RINGING handset leaves its ring set for an URGENT call of its own: withdrawn, sent RING-STOP and IDLE (R9, R87);
an emptied ring set is a ring timeout. -/
def State.leaveRinging (s : State) (h : Handset) : State × List Task :=
  let (s1, ts) := s.leaveRingSet h
  ((s1.indicate h .ringStop).setLine h .idle, ts)

/-- A RINGING handset leaves its ring set, and the ring timeout of the call it leaves is taken to its end, forward and
new ringing included (R9, R23, R25). DESIGN CHOICE: so are the grant events and the slot requests the timeout sets off;
and where one of them rings the handset again, for it is IDLE and free meanwhile (R3), it leaves that ring set in the
same way, so that it is IDLE at the end. R9 does not say when the grant events are taken, nor what becomes of a
handset rung again (notes/assumptions/21.md). The bound on the rounds is never reached. -/
def State.leaveForUrgent (s : State) (rounds : Nat) (h : Handset) : State × List Task :=
  match rounds with
  | 0 => s.leaveRinging h
  | n + 1 =>
    let (s1, ts) := s.leaveRinging h
    if ts.isEmpty then (s1, [])
    else
      let s2 := s1.cascade ts
      if s2.lineState h = .ringing then s2.leaveForUrgent n h else (s2, [])

/-- More rounds than `State.leaveForUrgent` can need: each of the 24 calls enters RINGING at most three times (R24). -/
def leaveRounds : Nat := 72

/-- KEY URGENT (R9). In RINGING the handset leaves its ring set, with all that sets off, and then originates from
IDLE. -/
def State.takeKeyUrgent (s : State) (h : Handset) : State × List Task :=
  match s.lineState h with
  | .connected => (s, [])
  | .ringing =>
    let (s1, ts) := s.leaveForUrgent leaveRounds h
    let (s2, us) := s1.originate .urgent (.handset h) .desk
    (s2, ts ++ us)
  | .idle => s.originate .urgent (.handset h) .desk
  | .offhook => s.originate .urgent (.handset h) .desk

/-- The privacy flag of a used directory entry written. -/
def State.setPrivacy (s : State) (i : DirIndex) (v : Bool) : State :=
  { s with dir := { s.dir with entries := upd s.dir.entries i (Option.map fun a => { a with hasPrivacy := v }) } }

/-- The privacy flag toggled, and the tone that tells its new value (R10). -/
def State.togglePrivacy (s : State) (h : Handset) : State :=
  match s.entryListing h with
  | some i =>
    match s.dir.entries[i] with
    | some a => (s.setPrivacy i (!a.hasPrivacy)).tone h (if a.hasPrivacy then .reject else .door)
    | none => s
  | none => s

/-- KEY PRIVACY (R10). -/
def State.takeKeyPrivacy (s : State) (h : Handset) : State × List Task :=
  match s.lineState h with
  | .idle => (s.togglePrivacy h, [])
  | .offhook => (s.togglePrivacy h, [])
  | .ringing => (s, [])
  | .connected => (s, [])

/-- HOOK_OFF (R5). -/
def execHookOff (r : Riser) (n : Node) (s : State) : Host.Outcome State Fault Refusal :=
  .next (s.takeReply r n fun t => t.takeHookOff { riser := r, node := n })

/-- HOOK_ON (R6). -/
def execHookOn (r : Riser) (n : Node) (s : State) : Host.Outcome State Fault Refusal :=
  .next (s.takeReply r n fun t => t.takeHookOn { riser := r, node := n })

/-- KEY_DOOR (R7). -/
def execKeyDoor (r : Riser) (n : Node) (s : State) : Host.Outcome State Fault Refusal :=
  .next (s.takeReply r n fun t => t.takeKeyDoor { riser := r, node := n })

/-- KEY_DESK (R8). -/
def execKeyDesk (r : Riser) (n : Node) (s : State) : Host.Outcome State Fault Refusal :=
  .next (s.takeReply r n fun t => t.takeKeyDesk { riser := r, node := n })

/-- DIAL (R8). -/
def execDial (r : Riser) (n : Node) (code : BitVec 16) (s : State) : Host.Outcome State Fault Refusal :=
  .next (s.takeReply r n fun t => t.takeDial { riser := r, node := n } code)

/-- KEY_URGENT (R9). -/
def execKeyUrgent (r : Riser) (n : Node) (s : State) : Host.Outcome State Fault Refusal :=
  .next (s.takeReply r n fun t => t.takeKeyUrgent { riser := r, node := n })

/-- KEY_PRIVACY (R10). -/
def execKeyPrivacy (r : Riser) (n : Node) (s : State) : Host.Outcome State Fault Refusal :=
  .next (s.takeReply r n fun t => t.takeKeyPrivacy { riser := r, node := n })

end Sys2Proof.Machine
end

