-- ==== Sys2Proof/Machine/Wire.lean ====
section
/-! DEFINITION. The layouts the exchange sends (spec/13): codes, origins, signal, reply, notice and STATUS bodies, table
entries, the check of R193 and whole frames, and the words of a riser message (R111, R194). -/

namespace Sys2Proof.Machine

open Sys2Proof

/-! ### Numbers -/

/-- A number sent in one byte. -/
def byte (n : Nat) : Byte := BitVec.ofNat 8 n

/-- A number sent in two bytes, high byte first (R193). -/
def twoBytes (n : Nat) : List Byte := [byte (n / 256), byte n]

/-- A flag sent as 1 or 0. -/
def flagByte (b : Bool) : Byte := if b then 1 else 0

/-- Eight flags in one byte, the first in bit 0. -/
def packByte : List Bool → Nat
  | [] => 0
  | b :: bs => (if b then 1 else 0) + 2 * packByte bs

/-- Flags in a number of bytes taken in order, the first flag in bit 0 of the first byte (the SURVEY notice of spec/13,
13.4). -/
def packBits : Nat → List Bool → List Byte
  | 0, _ => []
  | n + 1, bs => byte (packByte (bs.take 8)) :: packBits n (bs.drop 8)

/-- A field of flags in a number of bytes, sent high byte first (R193), with the first flag in its bit 0
(notes/assumptions/11.md). -/
def flagField (n : Nat) (bs : List Bool) : List Byte := (packBits n bs).reverse

/-! ### Codes (spec/13, 13.5) -/

/-- Call state codes. -/
def CallState.code : CallState → Nat
  | .waiting => 1
  | .ringing => 2
  | .talk => 3
  | .held => 4
  | .ending => 5

/-- Class codes. -/
def CallClass.code (c : CallClass) : Nat := c.index.val

/-- End cause codes. -/
def Cause.code : Cause → Nat
  | .completed => 1
  | .cancelled => 2
  | .noAnswer => 3
  | .timeLimit => 4
  | .busy => 5
  | .tableFull => 6
  | .linesFull => 7
  | .classOff => 8
  | .floor => 9
  | .noSuch => 10
  | .lineFault => 11
  | .isPrivate => 12
  | .deskClosed => 13
  | .deskBusy => 14
  | .noPath => 15
  | .preempted => 16
  | .linkLost => 17
  | .cleared => 18
  | .restart => 19

/-- REFUSE reason codes. -/
def Reason.code : Reason → Nat
  | .linesFull => 1
  | .tableFull => 2
  | .noCall => 3
  | .badLine => 4
  | .noSuch => 5
  | .deskClosed => 6
  | .ignored => 7

/-- Reply codes. -/
def ReplyCode.code : ReplyCode → Nat
  | .ok => 0
  | .clamped => 1
  | .badRequest => 2
  | .badTable => 3
  | .badIndex => 4
  | .badValue => 5
  | .duplicate => 6
  | .inUse => 7
  | .denied => 8
  | .storeBusy => 9
  | .busy => 10
  | .ignored => 11

/-- Condition codes. -/
def Condition.code : Condition → Nat
  | .doorHeld _ => 1
  | .doorForced _ => 2
  | .feedHeld _ => 3
  | .supplyDepleted => 4
  | .storeInvalid => 5
  | .urgentUnanswered => 6

/-- The instance of a condition, 0 where it has none. -/
def Condition.instanceCode : Condition → Nat
  | .doorHeld e => e.val
  | .doorForced e => e.val
  | .feedHeld r => r.val
  | .supplyDepleted => 0
  | .storeInvalid => 0
  | .urgentUnanswered => 0

/-- Feed state codes. -/
def FeedState.code : FeedState → Nat
  | .onNormal => 0
  | .onSag => 1
  | .offRetry => 2
  | .offHeld _ => 3

/-- Hold cause codes, 0 outside OFF-HELD. -/
def FeedState.holdCode : FeedState → Nat
  | .onNormal => 0
  | .onSag => 0
  | .offRetry => 0
  | .offHeld .start => 1
  | .offHeld .fault => 2
  | .offHeld .order => 3

/-- Door state codes. -/
def DoorState.code : DoorState → Nat
  | .shut => 0
  | .openAuth => 1
  | .openHeld => 2
  | .openForced => 3

/-- Release unit codes. -/
def DoorUnit.releaseCode (d : DoorUnit) : Nat :=
  match d.run with
  | none => 0
  | some r => if r.drive then 2 else 1

/-- Supply mode codes. -/
def Mode.code : Mode → Nat
  | .full => 0
  | .reserve => 1
  | .depleted => 2

/-- The supply mode's byte; a mode not set yet has a free code (notes/assumptions/4.md). -/
def modeByte : Option Mode → Byte
  | some m => byte m.code
  | none => Config.unsetModeCode

/-- Console line codes. -/
def ConsoleLine.code : ConsoleLine → Nat
  | .free => 0
  | .active _ => 1
  | .held _ => 2

/-- Presence codes. -/
def Presence.code : Presence → Nat
  | .absent => 0
  | .present => 1
  | .lost => 2

/-- An origin's three bytes (spec/13, 13.2). -/
def Origin.bytes : Origin → List Byte
  | .entrance e => [1, byte e.val, 0]
  | .handset h => [2, byte h.riser.val, byte (addressOf h.node)]
  | .line l => [3, byte (lineNumber l), 0]

/-- An origin that may be absent: kind 0. -/
def originBytes : Option Origin → List Byte
  | some o => o.bytes
  | none => [0, 0, 0]

/-! ### Bodies -/

/-- A PROGRESS state with what it carries (spec/13, 13.2). -/
def Progress.bytes : Progress → List Byte
  | .waiting => [1]
  | .ringing label => 2 :: byte label.length :: label
  | .connected => [3]
  | .warn => [4]
  | .door => [5]
  | .ended c => [6, byte c.code]

/-- The line byte of PROGRESS, 0 on an entrance link. -/
def lineByte : Option LineNo → Byte
  | some l => byte (lineNumber l)
  | none => 0

/-- A signal's body (spec/13, 13.2). -/
def Signal.bytes : Signal → List Byte
  | .progress l p => 0x20 :: lineByte l :: p.bytes
  | .offer c cls o level => [0x21, byte c.val, byte cls.code] ++ o.bytes ++ [byte level]
  | .withdraw c => [0x22, byte c.val]
  | .refuse signal why => [0x23, signal, byte why.code]

/-- A reply's body (spec/13, 13.3). -/
def Reply.bytes (x : Reply) : List Byte := [x.tag, byte x.code.code] ++ x.request.toList ++ x.data

/-- The content of a CALL-END notice (spec/13, 13.4). -/
def CallEnd.bytes (x : CallEnd) : List Byte :=
  [byte x.record.val, byte x.cls.code] ++ x.origin.bytes ++ twoBytes x.targetCode.toNat ++
  [byte x.cause.code, byte x.forwardStep, byte (packByte [x.party.isSome, x.talk.isSome, x.targetDesk])] ++
  originBytes x.party ++ twoBytes (x.latency.getD 0) ++ twoBytes (x.talk.getD 0) ++ [flagByte x.doorReleased] ++
  twoBytes x.skipped

/-- A STORE notice's byte. -/
def StoreOutcome.code : StoreOutcome → Nat
  | .done => 1
  | .failed => 2
  | .invalidAtStart => 3

/-- A notice's content (spec/13, 13.4). -/
def Notice.bytes : Notice → List Byte
  | .callEnd x => x.bytes
  | .door e d => [byte e.val, byte d.code]
  | .node h lost => [byte h.riser.val, byte (addressOf h.node), if lost then 1 else 2]
  | .feed r f n => [byte r.val, byte f.code, byte f.holdCode, byte n]
  | .supply m => [byte m.code]
  | .survey r ns incomplete =>
    [byte r.val, flagByte incomplete] ++ packBits 8 (allNodes.map fun n => ns.elem n)
  | .store o => [byte o.code]
  | .condition c => [byte c.code, byte c.instanceCode]
  | .restart cold => [if cold then 1 else 2]

/-- The kind byte of a frame (R136). -/
def Frame.kind : Frame → Byte
  | .signal _ => 1
  | .reply _ => 3
  | .notice _ _ => 4
  | .status _ => 5

/-- A frame's body. -/
def Frame.body : Frame → List Byte
  | .signal x => x.bytes
  | .reply x => x.bytes
  | .notice n lost => [byte n.kind, flagByte lost] ++ n.bytes
  | .status b => b

/-! ### The check and the whole frame (R193) -/

/-- One bit taken into the check register. -/
def crcBit (crc : BitVec 16) (b : Bool) : BitVec 16 :=
  if crc.msb != b then (crc <<< 1) ^^^ 0x1021 else crc <<< 1

/-- One byte taken into the check register, most significant bit first. -/
def crcByte (crc : BitVec 16) (b : Byte) : BitVec 16 :=
  crcBit (crcBit (crcBit (crcBit (crcBit (crcBit (crcBit (crcBit crc (b.getLsbD 7)) (b.getLsbD 6)) (b.getLsbD 5))
    (b.getLsbD 4)) (b.getLsbD 3)) (b.getLsbD 2)) (b.getLsbD 1)) (b.getLsbD 0)

/-- The check over a list of bytes (R193). -/
def crc16 (bs : List Byte) : BitVec 16 := bs.foldl crcByte 0xFFFF

/-- A frame around a body (spec/13, 13.1). -/
def frameBytes (kind : Byte) (body : List Byte) : List Byte :=
  let covered := kind :: byte body.length :: body
  0xA5 :: (covered ++ twoBytes (crc16 covered).toNat)

/-- The bytes of a frame the exchange sends. -/
def Frame.bytes (f : Frame) : List Byte := frameBytes f.kind f.body

/-! ### Table entries (spec/13, 13.3) -/

/-- A step's byte: a directory index, or FFh for DESK. -/
def Step.toByte : Step → Byte
  | .apartment i => byte i.val
  | .desk => 0xFF

/-- A directory entry read: an unused one is its used byte alone (R47). -/
def apartmentBytes : Option Apartment → List Byte
  | none => [0]
  | some a =>
    [1] ++ twoBytes a.code.toNat ++ [byte a.riser.val, byte a.nodes.length] ++ a.nodes.map (fun n => byte (addressOf n)) ++
    [byte a.chain.length] ++ a.chain.map Step.toByte ++ [flagByte a.hasPrivacy, byte a.label.length] ++ a.label

/-- A handset table entry read. -/
def HandsetEntry.bytes (x : HandsetEntry) : List Byte := [flagByte x.enrolled, byte x.load]

/-- A class table entry read. -/
def ClassParams.bytes (x : ClassParams) : List Byte :=
  [byte x.base, byte x.aging, byte x.queue, byte x.cycles] ++ twoBytes x.talk ++
  [byte x.profile.val, byte (packByte [x.preempt, x.hasPrivacy, x.forward])]

/-- A cadence profile read. -/
def Profile.bytes (x : Profile) : List Byte := [byte x.on1, byte x.off1, byte x.on2, byte x.off2]

/-- A door table entry read. -/
def DoorEntry.bytes (x : DoorEntry) : List Byte :=
  [byte x.delay, byte x.width, byte x.grace] ++ twoBytes x.heldLimit ++
  [flagByte x.forced, flagByte x.unlockOnDrive, flagByte x.openWhenHigh]

/-- A riser table entry read. -/
def RiserEntry.bytes (x : RiserEntry) : List Byte :=
  flagByte x.enabled :: twoBytes x.budget ++ [byte x.missed] ++ twoBytes x.short ++ twoBytes x.sag

/-- The supply record read. -/
def SupplyRecord.bytes (x : SupplyRecord) : List Byte :=
  [byte x.fullFloor, byte x.percent, byte x.slots, byte x.floor] ++ twoBytes x.pause ++ twoBytes x.depleted

/-! ### QUERY-CALLS and QUERY-STATUS (R179, R180) -/

/-- The wait byte of a QUERY-CALLS record (spec/13, 13.3). -/
def Call.waitByte (x : Call) : Byte :=
  let kind :=
    match x.waitKind with
    | none => 0
    | some (.riser r) => r.val + 1
    | some .desk => 5
  byte (kind + (if x.target = .desk then 64 else 0) + if x.claim then 128 else 0)

/-- A record of the QUERY-CALLS reply. -/
def State.callBytes (s : State) (c : CallId) (x : Call) : List Byte :=
  [byte c.val, byte (16 * x.state.code + x.cls.code)] ++ x.origin.bytes ++ twoBytes (s.targetCode x).toNat ++
  twoBytes x.stamp.toNat ++ [x.waitByte, if x.state = .waiting then byte x.level else 0]

/-- The live records from a starting number upwards. -/
def State.liveFrom (s : State) (start : CallId) : List CallId :=
  allCalls.filter fun c => decide (start ≤ c) && (s.call? c).isSome

/-- The QUERY-CALLS reply data (R179). -/
def State.callsData (s : State) (start : CallId) : List Byte :=
  let live := s.liveFrom start
  let next := match (live.drop 5).head? with
    | some c => byte c.val
    | none => 0xFF
  [next, byte (live.take 5).length] ++ (live.take 5).flatMap fun c =>
    match s.call? c with
    | some x => s.callBytes c x
    | none => []

/-- The 19 conditions in the order of their table. -/
def Conditions.bits (k : Conditions) : List Bool :=
  k.doorHeld.toList ++ k.doorForced.toList ++ k.feedHeld.toList ++
  [k.supplyDepleted, k.storeInvalid, k.urgentUnanswered]

/-- The mask's two bytes (spec/13, 13.3). -/
def maskBytes (m : BitVec 9) : List Byte := twoBytes m.toNat

/-- The GENERAL section (R180). -/
def State.generalData (s : State) : List Byte :=
  [0x1C, 0xF8, Config.revision, modeByte s.supply.mode, flagByte (s.supply.mains == some true)] ++
  twoBytes (batteryMv s.meas.battery.filtered) ++
  [byte s.ctl.floor, byte s.arb.usable, flagByte s.desk.isOpen, byte s.desk.lines[0].code, byte s.desk.lines[1].code,
   byte s.desk.queue.length] ++
  flagField 3 s.mgmt.conditions.bits ++ [byte s.mgmt.notices.length, flagByte s.mgmt.lost] ++ maskBytes s.mgmt.mask ++
  [flagByte s.saving]

/-- Two bits of a presence code, the low one first. -/
def Presence.bits (p : Presence) : List Bool := [p == .present, p == .lost]

/-- A RISER section (R180). -/
def State.riserData (s : State) (r : Riser) : List Byte :=
  let f := s.feeds[r]
  let u := s.risers[r]
  [byte f.state.code, byte f.state.holdCode, byte f.retries] ++
  twoBytes (voltageMv s.meas.voltage[r].filtered) ++ twoBytes (currentMa s.meas.current[r].filtered) ++
  twoBytes (s.beff r) ++ twoBytes (s.soundSum r) ++
  [byte s.arb.risers[r].held, byte s.arb.risers[r].wait.length] ++
  flagField 15 (allNodes.flatMap fun n => u.presence[n].bits) ++ [flagByte u.survey.isSome] ++
  twoBytes u.parityErrors ++ twoBytes u.wordErrors ++ twoBytes u.dropped

/-- A link's state and counters. -/
def LinkUnit.data (u : LinkUnit) : List Byte := flagByte u.up :: twoBytes u.frameErrors ++ twoBytes u.sendLoss

/-- An ENTRANCE section (R180). -/
def State.entranceData (s : State) (e : Entrance) : List Byte :=
  (s.link (.entrance e)).data ++
  [byte (windowMinutes s.mgmt.windows[e]), byte s.doors[e].releaseCode, byte s.doors[e].door.code] ++
  twoBytes s.doors[e].ignored

/-! ### STATUS (R141) -/

/-- The call part of an entrance's STATUS. -/
def State.entranceCallCode (s : State) (e : Entrance) : Nat :=
  match s.originCall (.entrance e) with
  | some c =>
    match (s.call? c).map Call.state with
    | some .waiting => 1
    | some .ringing => 2
    | some .talk => 3
    | some .held => 3
    | some .ending => 4
    | none => 0
  | none => 0

/-- A link's STATUS body (spec/13, 13.4). -/
def State.statusBody (s : State) (l : Link) : List Byte :=
  [(s.link l).sequence, flagByte (s.link l).up, modeByte s.supply.mode] ++
  match l with
  | .entrance e =>
    [byte (s.entranceCallCode e), byte (windowMinutes s.mgmt.windows[e]), byte s.doors[e].door.code]
  | .desk => [flagByte s.desk.isOpen, byte s.desk.lines[0].code, byte s.desk.lines[1].code, byte s.desk.queue.length]

/-! ### Riser words (R111, R194) -/

/-- The parity bit of nine bits: it makes the ten an odd number of ones. -/
def oddParity (w : BitVec 9) : Bool :=
  !((List.range 9).foldl (fun p i => p != w.getLsbD i) false)

/-- A riser word: data in bits 0 to 7, marker in bit 8, parity in bit 9 (spec/13, 13.6). -/
def riserWord (marker : Bool) (data : Byte) : BitVec 10 :=
  let w : BitVec 9 := BitVec.ofBool marker ++ data
  BitVec.ofBool (oddParity w) ++ w

/-- A message: an address word and its data words. -/
def messageWords (address : Nat) (data : List Byte) : List (BitVec 10) :=
  riserWord true (byte address) :: data.map (riserWord false)

/-- Ring indication values. -/
def RingKind.code : RingKind → Nat
  | .sound => 1
  | .silent => 2
  | .quiet => 3

/-- Tone values. -/
def Tone.code : Tone → Nat
  | .ringback => 1
  | .busy => 2
  | .wait => 3
  | .warn => 4
  | .door => 5
  | .reject => 6

/-- The data words of a command. -/
def Command.data (m : Command) : List Byte :=
  match m with
  | .slot _ k => [m.code, byte k.val]
  | .clear _ _ => [m.code]

/-- The data words of an indication. -/
def Indication.data (i : Indication) : List Byte :=
  match i with
  | .ring k => [i.code, byte k.code]
  | .ringStop => [i.code]
  | .tone t => [i.code, byte t.code]
  | .display o => i.code :: o.bytes

/-- The words on a riser's bus for the use under way (R112): what the exchange sends. -/
def RiserControl.sent (u : RiserControl) : List (BitVec 10) :=
  if u.allClearMs ≠ 0 then messageWords 0 [3]
  else
    match u.use with
    | .silent => []
    | .idle => []
    | .pause => []
    | .regularPoll n => messageWords (addressOf n) [1]
    | .attentionPoll n => messageWords (addressOf n) [1]
    | .probe n => messageWords (addressOf n) [1]
    | .control =>
      match u.control with
      | m :: _ => messageWords (addressOf m.node) m.data
      | [] => []
    | .indication =>
      match u.indications with
      | e :: _ => messageWords (addressOf e.node) e.content.data
      | [] => []

end Sys2Proof.Machine
end

