-- ==== Sys2Proof/WellFormed.lean ====
section
/-! DEFINITION. Which terms of `Instr` are commands that can arrive at all. Most operands are typed so that no
check is needed; two are not (spec/13, 13.1 and 13.3). -/

namespace Sys2Proof

/-- The body of a directory WRITE-ENTRY fits the 60 bytes a frame can carry: tag, request code, table and index
take five bytes, the fixed fields of the entry eight, and the rest are its counted items. -/
def DirectoryWrite.fits (w : DirectoryWrite) : Bool :=
  w.nodes.length + w.steps.length + w.label.length ≤ 47

/-- A request refused for its table is a READ-ENTRY, WRITE-ENTRY or CLEAR-ENTRY (check 3 of R176). -/
def tableRequest (code : Byte) : Bool :=
  code == 1 || code == 2 || code == 3

/-- A well-formed command: one that some frame, word, sample or event can bring. -/
def Instr.wellFormed : Instr → Bool
  | .coldStart _ => true
  | .firstSupplyMode => true
  | .startupSwitchOn => true
  | .restart _ _ => true
  | .frameDiscarded _ => true
  | .frameAbandoned _ => true
  | .statusReceived _ => true
  | .signalDisregarded _ => true
  | .livenessTimerExpiry _ => true
  | .statusDue _ => true
  | .frameSent _ => true
  | .noticeTaken => true
  | .call _ _ => true
  | .callDesk _ => true
  | .cancel _ => true
  | .deskCall _ => true
  | .deskAnswer _ => true
  | .deskHold _ => true
  | .deskResume _ => true
  | .deskEnd _ => true
  | .deskRelease _ => true
  | .deskOpen => true
  | .deskClose => true
  | .manageEmptyBody _ => true
  | .manageUnknownRequest _ _ code badTable => !badTable || tableRequest code
  | .readEntry _ _ _ _ => true
  | .writeEntryDirectory _ _ _ w => w.fits
  | .clearEntryDirectory _ _ _ => true
  | .writeEntryHandset _ _ _ _ => true
  | .clearEntryHandset _ _ _ => true
  | .writeEntryClass _ _ _ _ => true
  | .clearEntryClass _ _ _ => true
  | .writeEntryProfile _ _ _ _ => true
  | .clearEntryProfile _ _ _ => true
  | .writeEntryDoor _ _ _ _ => true
  | .clearEntryDoor _ _ _ => true
  | .writeEntryRiser _ _ _ _ => true
  | .clearEntryRiser _ _ _ => true
  | .writeEntrySupply _ _ _ _ => true
  | .clearEntrySupply _ _ _ => true
  | .queryCalls _ _ _ => true
  | .queryStatus _ _ _ _ => true
  | .clearCondition _ _ _ _ => true
  | .setMask _ _ _ => true
  | .doorRelease _ _ _ => true
  | .callClear _ _ _ => true
  | .riserFeed _ _ _ _ => true
  | .riserSurvey _ _ _ => true
  | .serviceWindow _ _ _ _ => true
  | .manageDeskOpen _ _ => true
  | .manageDeskClose _ _ => true
  | .save _ _ => true
  | .saveEraseDone => true
  | .savePageWritten _ => true
  | .saveMarkWritten _ => true
  | .serviceWindowExpiry _ => true
  | .pollPauseEnd _ => true
  | .noneReply _ _ => true
  | .hookOff _ _ => true
  | .hookOn _ _ => true
  | .keyDoor _ _ => true
  | .keyDesk _ _ => true
  | .dial _ _ _ => true
  | .keyUrgent _ _ => true
  | .keyPrivacy _ _ => true
  | .missedPoll _ _ => true
  | .ack _ _ _ => true
  | .commandNoAck _ _ => true
  | .surveyProbe _ _ => true
  | .cadenceSegmentEnd _ => true
  | .talkWarning _ => true
  | .talkLimit _ => true
  | .queueLimit _ => true
  | .deskQueueLimit _ => true
  | .delayEnd _ => true
  | .driveEnd _ => true
  | .graceExpiry _ => true
  | .doorOpening _ => true
  | .doorClosing _ => true
  | .heldTimerExpiry _ => true
  | .feedVoltageConversion _ _ => true
  | .feedCurrentConversion _ _ => true
  | .batteryConversion _ => true
  | .debouncedMainsChange _ => true
  | .settleEnd _ => true
  | .retryExpiry _ => true
  | .stableExpiry _ => true
  | .doorContactSample _ _ => true
  | .mainsSenseSample _ => true

end Sys2Proof
end

