-- ==== Sys2Proof/Decode.lean ====
section
/-! DEFINITION. How what arrives from outside spells a command. `decodeTableWord` reads the words of the opcode table,
which gives no row any bits. The rest reads the layouts of spec/13: bytes of a link into frames and frames into commands
(R136, R137, R176, R193), and the words of a reply window into the command they are (R113, R194). -/

namespace Sys2Proof

/-- The command a word of the opcode table spells. No row of spec/opcode_table.json has fields or bits, so no word
spells one. -/
def decodeTableWord (_nbits _w : Nat) : Option Instr := none

end Sys2Proof

namespace Sys2Proof.Machine

open Sys2Proof

/-! ### Bodies of a link's frames -/

/-- Two bytes, high byte first (R193). -/
def two (hi lo : Byte) : BitVec 16 := hi ++ lo

/-- A panel signal's body on the link of entrance `e` (spec/13, 13.2). -/
def panelSignal (e : Entrance) : List Byte → Option Instr
  | [0x01, hi, lo] => some (.call e (two hi lo))
  | [0x02] => some (.callDesk e)
  | [0x03] => some (.cancel e)
  | _ => none

/-- A desk signal's body on the desk link (spec/13, 13.2). -/
def deskSignal : List Byte → Option Instr
  | [0x10, hi, lo] => some (.deskCall (two hi lo))
  | [0x11, c] => some (.deskAnswer c)
  | [0x12, n] => some (.deskHold n)
  | [0x13, n] => some (.deskResume n)
  | [0x14, n] => some (.deskEnd n)
  | [0x15, e] => some (.deskRelease e)
  | [0x16] => some .deskOpen
  | [0x17] => some .deskClose
  | _ => none

/-- The signal a body holds on a link (R137). -/
def signalOn : Link → List Byte → Option Instr
  | .entrance e, body => panelSignal e body
  | .desk, body => deskSignal body

/-- A count and as many items, with what follows them. -/
def counted : List Byte → Option (List Byte × List Byte)
  | n :: rest => if n.toNat ≤ rest.length then some (rest.take n.toNat, rest.drop n.toNat) else none
  | [] => none

/-- The directory entry a WRITE-ENTRY supplies (spec/13, 13.3), when the body holds exactly its bytes. -/
def directoryBody : List Byte → Option DirectoryWrite
  | used :: hi :: lo :: riser :: rest =>
    match counted rest with
    | some (nodes, rest1) =>
      match counted rest1 with
      | some (steps, privacy :: rest2) =>
        match counted rest2 with
        | some (label, []) =>
          some { used := used, code := two hi lo, riser := riser, nodes := nodes, steps := steps, privacy := privacy,
                 label := label }
        | _ => none
      | _ => none
    | none => none
  | _ => none

/-- A WRITE-ENTRY on one of the seven tables (spec/13, 13.3). -/
def writeRequest (src : Link) (tag : Byte) (table : Byte) (i : EntryIndex) (entry : List Byte) : Option Instr :=
  match table.toNat, entry with
  | 1, body => (directoryBody body).map fun w => .writeEntryDirectory src tag i w
  | 2, [enrolled, load] => some (.writeEntryHandset src tag i { enrolled := enrolled, load := load })
  | 3, [base, aging, queue, cycles, hi, lo, profile, flags] =>
    some (.writeEntryClass src tag i
      { base := base, aging := aging, queue := queue, cycles := cycles, talk := two hi lo, profile := profile,
        flags := flags })
  | 4, [on1, off1, on2, off2] =>
    some (.writeEntryProfile src tag i { on1 := on1, off1 := off1, on2 := on2, off2 := off2 })
  | 5, [delay, width, grace, hi, lo, forced, polarity, sense] =>
    some (.writeEntryDoor src tag i
      { delay := delay, width := width, grace := grace, heldLimit := two hi lo, forced := forced, polarity := polarity,
        sense := sense })
  | 6, [enabled, bh, bl, missed, sh, sl, gh, gl] =>
    some (.writeEntryRiser src tag i
      { enabled := enabled, budget := two bh bl, missed := missed, short := two sh sl, sag := two gh gl })
  | 7, [fullFloor, percent, slots, floor, ph, pl, dh, dl] =>
    some (.writeEntrySupply src tag i
      { fullFloor := fullFloor, percent := percent, slots := slots, floor := floor, pause := two ph pl,
        depleted := two dh dl })
  | _, _ => none

/-- A CLEAR-ENTRY on one of the seven tables. -/
def clearRequest (src : Link) (tag : Byte) (table : Byte) (i : EntryIndex) : Option Instr :=
  match table.toNat with
  | 1 => some (.clearEntryDirectory src tag i)
  | 2 => some (.clearEntryHandset src tag i)
  | 3 => some (.clearEntryClass src tag i)
  | 4 => some (.clearEntryProfile src tag i)
  | 5 => some (.clearEntryDoor src tag i)
  | 6 => some (.clearEntryRiser src tag i)
  | 7 => some (.clearEntrySupply src tag i)
  | _ => none

/-- Whether a byte names one of the seven tables (R177). -/
def tableKnown (table : Byte) : Bool := 1 ≤ table.toNat && table.toNat ≤ 7

/-- A table request whose table is none of the seven (check 3 of R176). -/
def badTable (src : Link) (tag code : Byte) : Instr := .manageUnknownRequest src tag code true

/-- A request with an unknown code, or a length its code does not call for (check 2 of R176). -/
def badRequest (src : Link) (tag code : Byte) : Instr := .manageUnknownRequest src tag code false

/-- A management request's parameters read (spec/13, 13.3). -/
def request (src : Link) (tag code : Byte) (params : List Byte) : Instr :=
  match code.toNat, params with
  | 0x01, [table, hi, lo] =>
    if tableKnown table then .readEntry src tag table { hi := hi, lo := lo } else badTable src tag code
  | 0x02, table :: hi :: lo :: entry =>
    if tableKnown table then (writeRequest src tag table { hi := hi, lo := lo } entry).getD (badRequest src tag code)
    else badTable src tag code
  | 0x03, [table, hi, lo] => (clearRequest src tag table { hi := hi, lo := lo }).getD (badTable src tag code)
  | 0x04, [start] => .queryCalls src tag start
  | 0x05, [part, which] => .queryStatus src tag part which
  | 0x06, [cond, inst] => .clearCondition src tag cond inst
  | 0x07, [hi, lo] => .setMask src tag (two hi lo)
  | 0x08, [e] => .doorRelease src tag e
  | 0x09, [c] => .callClear src tag c
  | 0x0A, [r, onOff] => .riserFeed src tag r onOff
  | 0x0B, [r] => .riserSurvey src tag r
  | 0x0C, [e, minutes] => .serviceWindow src tag e minutes
  | 0x0D, [] => .manageDeskOpen src tag
  | 0x0E, [] => .manageDeskClose src tag
  | 0x0F, [] => .save src tag
  | 0x10, [] => .restart src tag
  | _, _ => badRequest src tag code

/-- A MANAGE body (R176): fewer than two bytes hold no request. -/
def manageBody (src : Link) : List Byte → Instr
  | tag :: code :: params => request src tag code params
  | [_] => .manageEmptyBody src
  | [] => .manageEmptyBody src

/-- The command of a valid frame (R137). -/
def frameCommand (l : Link) (kind : Byte) (body : List Byte) : Option Instr :=
  match kind.toNat with
  | 1 => some ((signalOn l body).getD (.signalDisregarded l))
  | 2 => some (manageBody l body)
  | 3 => some (.statusReceived l)
  | 4 => some (.statusReceived l)
  | 5 => some (.statusReceived l)
  | _ => none

/-! ### The bytes of a link (R136) -/

/-- The longest body a frame may have. -/
def longestBody : Nat := 60

/-- A whole frame judged: its check and its kind (R136). -/
def judgeFrame (l : Link) (kind length : Byte) (body : List Byte) (hi lo : Byte) : Instr :=
  if crc16 (kind :: length :: body) = two hi lo then (frameCommand l kind body).getD (.frameDiscarded l)
  else .frameDiscarded l

/-- A frame's bytes after its length byte, when all have arrived: the body and the two check bytes. -/
def judgeRest (l : Link) (kind length : Byte) (rest : List Byte) : Instr :=
  match rest.drop length.toNat with
  | [hi, lo] => judgeFrame l kind length (rest.take length.toNat) hi lo
  | _ => .frameDiscarded l

/-- A byte received on a link (R136): the part of a frame received so far becomes another, and a frame that is whole, or
too long, spells a command. -/
def receive (l : Link) (part : List Byte) (b : Byte) : List Byte × Option Instr :=
  match part with
  | [] => (if b = 0xA5 then [b] else [], none)
  | [start] => ([start, b], none)
  | [start, kind] => if longestBody < b.toNat then ([], some (.frameDiscarded l)) else ([start, kind, b], none)
  | start :: kind :: length :: rest =>
    let rest1 := rest ++ [b]
    if rest1.length < length.toNat + 2 then (start :: kind :: length :: rest1, none)
    else ([], some (judgeRest l kind length rest1))

/-- Bytes received one after the other: what is left of an unfinished frame, and the commands spelt. -/
def receiveAll (l : Link) : List Byte → List Byte → List Byte × List Instr
  | part, [] => (part, [])
  | part, b :: bs =>
    let (part1, i) := receive l part b
    let (part2, is) := receiveAll l part1 bs
    (part2, i.toList ++ is)

/-- What stands received of a frame: nothing once its gap timer is out, for the frame is then abandoned (R136). -/
def LinkUnit.part (u : LinkUnit) : List Byte := if u.gap = some 0 then [] else u.received

/-- A byte arrives on a link: the command it completes, if any, joins the end of the queue. Each byte of an unfinished
frame starts the gap timer again (R136). -/
def State.byteIn (s : State) (l : Link) (b : Byte) : State :=
  let (part, i) := receive l (s.link l).part b
  let s1 := s.modLink l fun u => { u with received := part, gap := if part.isEmpty then none else some gapMs }
  { s1 with pending := s1.pending ++ i.toList }

/-! ### What a partner sends -/

/-- The two bytes of a number (R193). -/
def bytesOf (x : BitVec 16) : List Byte := [x.extractLsb' 8 8, x.extractLsb' 0 8]

/-- A count and its items. -/
def countedBytes (xs : List Byte) : List Byte := byte xs.length :: xs

/-- A MANAGE body: tag, request code and parameters. -/
def manageFrame (src : Link) (tag code : Byte) (params : List Byte) : Option (Link × Byte × List Byte) :=
  some (src, 2, tag :: code :: params)

/-- A table request's body: table and index, then the entry. -/
def tableFrame (src : Link) (tag code table : Byte) (i : EntryIndex) (entry : List Byte) :
    Option (Link × Byte × List Byte) :=
  manageFrame src tag code (table :: i.hi :: i.lo :: entry)

/-- The link, the frame kind and the body that spell a command which is a panel or desk signal or a management request
(spec/13, 13.2 and 13.3); nothing for the others. -/
def frameOf : Instr → Option (Link × Byte × List Byte)
  | .call e code => some (.entrance e, 1, 0x01 :: bytesOf code)
  | .callDesk e => some (.entrance e, 1, [0x02])
  | .cancel e => some (.entrance e, 1, [0x03])
  | .deskCall code => some (.desk, 1, 0x10 :: bytesOf code)
  | .deskAnswer c => some (.desk, 1, [0x11, c])
  | .deskHold n => some (.desk, 1, [0x12, n])
  | .deskResume n => some (.desk, 1, [0x13, n])
  | .deskEnd n => some (.desk, 1, [0x14, n])
  | .deskRelease e => some (.desk, 1, [0x15, e])
  | .deskOpen => some (.desk, 1, [0x16])
  | .deskClose => some (.desk, 1, [0x17])
  | .readEntry src tag table i => if tableKnown table then tableFrame src tag 0x01 table i [] else none
  | .writeEntryDirectory src tag i w =>
    tableFrame src tag 0x02 1 i
      (w.used :: bytesOf w.code ++ w.riser :: countedBytes w.nodes ++ countedBytes w.steps ++
        w.privacy :: countedBytes w.label)
  | .clearEntryDirectory src tag i => tableFrame src tag 0x03 1 i []
  | .writeEntryHandset src tag i w => tableFrame src tag 0x02 2 i [w.enrolled, w.load]
  | .clearEntryHandset src tag i => tableFrame src tag 0x03 2 i []
  | .writeEntryClass src tag i w =>
    tableFrame src tag 0x02 3 i ([w.base, w.aging, w.queue, w.cycles] ++ bytesOf w.talk ++ [w.profile, w.flags])
  | .clearEntryClass src tag i => tableFrame src tag 0x03 3 i []
  | .writeEntryProfile src tag i w => tableFrame src tag 0x02 4 i [w.on1, w.off1, w.on2, w.off2]
  | .clearEntryProfile src tag i => tableFrame src tag 0x03 4 i []
  | .writeEntryDoor src tag i w =>
    tableFrame src tag 0x02 5 i
      ([w.delay, w.width, w.grace] ++ bytesOf w.heldLimit ++ [w.forced, w.polarity, w.sense])
  | .clearEntryDoor src tag i => tableFrame src tag 0x03 5 i []
  | .writeEntryRiser src tag i w =>
    tableFrame src tag 0x02 6 i (w.enabled :: bytesOf w.budget ++ w.missed :: bytesOf w.short ++ bytesOf w.sag)
  | .clearEntryRiser src tag i => tableFrame src tag 0x03 6 i []
  | .writeEntrySupply src tag i w =>
    tableFrame src tag 0x02 7 i
      ([w.fullFloor, w.percent, w.slots, w.floor] ++ bytesOf w.pause ++ bytesOf w.depleted)
  | .clearEntrySupply src tag i => tableFrame src tag 0x03 7 i []
  | .queryCalls src tag start => manageFrame src tag 0x04 [start]
  | .queryStatus src tag part which => manageFrame src tag 0x05 [part, which]
  | .clearCondition src tag cond inst => manageFrame src tag 0x06 [cond, inst]
  | .setMask src tag mask => manageFrame src tag 0x07 (bytesOf mask)
  | .doorRelease src tag e => manageFrame src tag 0x08 [e]
  | .callClear src tag c => manageFrame src tag 0x09 [c]
  | .riserFeed src tag r onOff => manageFrame src tag 0x0A [r, onOff]
  | .riserSurvey src tag r => manageFrame src tag 0x0B [r]
  | .serviceWindow src tag e minutes => manageFrame src tag 0x0C [e, minutes]
  | .manageDeskOpen src tag => manageFrame src tag 0x0D []
  | .manageDeskClose src tag => manageFrame src tag 0x0E []
  | .save src tag => manageFrame src tag 0x0F []
  | .restart src tag => manageFrame src tag 0x10 []
  | .coldStart _ => none
  | .firstSupplyMode => none
  | .startupSwitchOn => none
  | .frameDiscarded _ => none
  | .frameAbandoned _ => none
  | .statusReceived _ => none
  | .signalDisregarded _ => none
  | .livenessTimerExpiry _ => none
  | .statusDue _ => none
  | .frameSent _ => none
  | .noticeTaken => none
  | .manageEmptyBody _ => none
  | .manageUnknownRequest _ _ _ _ => none
  | .saveEraseDone => none
  | .savePageWritten _ => none
  | .saveMarkWritten _ => none
  | .serviceWindowExpiry _ => none
  | .pollPauseEnd _ => none
  | .noneReply _ _ => none
  | .hookOff _ _ => none
  | .hookOn _ _ => none
  | .keyDoor _ _ => none
  | .keyDesk _ _ => none
  | .dial _ _ _ => none
  | .keyUrgent _ _ => none
  | .keyPrivacy _ _ => none
  | .missedPoll _ _ => none
  | .ack _ _ _ => none
  | .commandNoAck _ _ => none
  | .surveyProbe _ _ => none
  | .cadenceSegmentEnd _ => none
  | .talkWarning _ => none
  | .talkLimit _ => none
  | .queueLimit _ => none
  | .deskQueueLimit _ => none
  | .delayEnd _ => none
  | .driveEnd _ => none
  | .graceExpiry _ => none
  | .doorOpening _ => none
  | .doorClosing _ => none
  | .heldTimerExpiry _ => none
  | .feedVoltageConversion _ _ => none
  | .feedCurrentConversion _ _ => none
  | .batteryConversion _ => none
  | .debouncedMainsChange _ => none
  | .settleEnd _ => none
  | .retryExpiry _ => none
  | .stableExpiry _ => none
  | .doorContactSample _ _ => none
  | .mainsSenseSample _ => none

/-! ### The words of a reply window (R113, R194) -/

/-- Whether a received word has good parity: an odd number of ones (R111). -/
def goodParity (w : BitVec 10) : Bool := (List.range 10).foldl (fun p i => p != w.getLsbD i) false

/-- The data of a word whose marker is 0. -/
def dataWord (w : BitVec 10) : Option Byte := if w.getLsbD 8 then none else some (w.extractLsb' 0 8)

/-- The node an address word names. -/
def addressWord (w : BitVec 10) : Option Node := if w.getLsbD 8 then nodeOf (w.extractLsb' 0 8) else none

/-- Whether a code is one of the exchange's messages (R194). -/
def messageCode (b : Byte) : Bool := 1 ≤ b.toNat && b.toNat ≤ 7

/-- The reply of a node whose data words are given (spec/13, 13.6). -/
def replyOf (r : Riser) (n : Node) : List Byte → Option Instr
  | [0x40] => some (.noneReply r n)
  | [0x41] => some (.hookOff r n)
  | [0x42] => some (.hookOn r n)
  | [0x43, 1] => some (.keyDoor r n)
  | [0x43, 2] => some (.keyDesk r n)
  | [0x43, 3] => some (.keyUrgent r n)
  | [0x43, 4] => some (.keyPrivacy r n)
  | [0x44, hi, lo] => some (.dial r n (two hi lo))
  | [0x45, code] => if messageCode code then some (.ack r n code) else none
  | _ => none

/-- The reply of words whose parity is good throughout, when their layout is one of R113. -/
def wordsReply (r : Riser) : List (BitVec 10) → Option Instr
  | w :: ws =>
    match addressWord w, readAll dataWord ws with
    | some n, some bs => replyOf r n bs
    | _, _ => none
  | [] => none

/-- The command that a reply window without a valid reply is, by the use of the bus it belongs to. -/
def failedWindow (r : Riser) (u : BusUse) (f : WindowFault) : Option Instr :=
  match u with
  | .regularPoll _ => some (.missedPoll r f)
  | .attentionPoll _ => some (.missedPoll r f)
  | .probe _ => some (.surveyProbe r (.failed f))
  | .control => some (.commandNoAck r f)
  | .indication => some (.commandNoAck r f)
  | .silent => none
  | .idle => none
  | .pause => none

/-- The command that the words received in a reply window are (R113, R194): parity is judged first, then the layout;
whether the reply answers what was sent is judged when the command is taken. -/
def windowCommand (r : Riser) (u : BusUse) (ws : List (BitVec 10)) : Option Instr :=
  if ws.isEmpty then failedWindow r u .noReply
  else if ws.all goodParity then
    match wordsReply r ws with
    | some i => some i
    | none => failedWindow r u .notValid
  else failedWindow r u .badParity

end Sys2Proof.Machine
end

