-- ==== Sys2Proof/Machine/Links.lean ====
section
/-! DEFINITION. The link units (spec/07): valid and discarded frames, the link state, sending, and the panel signals. -/

namespace Sys2Proof.Machine

open Sys2Proof

/-! ### Receiving -/

/-- The liveness timer's length, 3 s (R138). -/
def livenessMs : Nat := 3000

/-- A valid frame has arrived: the link is UP and its liveness timer starts at 3 s (R138). Its bytes were taken as they
came (`State.byteIn`), and what has been received of the next frame stands. -/
def LinkUnit.validFrame (u : LinkUnit) : LinkUnit := { u with up := true, liveness := some livenessMs }

/-- A valid frame has arrived on a link (R138); what it carries is then handed on (R137). -/
def State.frameIn (s : State) (l : Link) : State := s.modLink l LinkUnit.validFrame

/-- A frame that is not valid is discarded (R136): counted once. The unit hunts from the byte after it on, so what has
been received since stands. -/
def LinkUnit.discard (u : LinkUnit) : LinkUnit := { u with frameErrors := bump u.frameErrors }

/-- A frame whose bytes have stopped is abandoned (R136): counted, and the unit hunts again. A byte that has come in
this very millisecond has started the gap timer anew: it belongs to the next frame, and stands. -/
def LinkUnit.abandon (u : LinkUnit) : LinkUnit :=
  if u.gap = some gapMs then u.discard else { u.discard with received := [], gap := none }

/-- FRAME_DISCARDED (R136). -/
def execFrameDiscarded (l : Link) (s : State) : Host.Outcome State Fault Refusal :=
  .next (s.modLink l LinkUnit.discard)

/-- FRAME_ABANDONED (R136). -/
def execFrameAbandoned (l : Link) (s : State) : Host.Outcome State Fault Refusal :=
  .next (s.modLink l LinkUnit.abandon)

/-- STATUS_RECEIVED (R137): disregarded, but the link stays alive. -/
def execStatusReceived (l : Link) (s : State) : Host.Outcome State Fault Refusal := .next (s.frameIn l)

/-- SIGNAL_DISREGARDED (R137). -/
def execSignalDisregarded (l : Link) (s : State) : Host.Outcome State Fault Refusal := .next (s.frameIn l)

/-! ### The link goes DOWN -/

/-- Every call of a list ends with a cause. -/
def endCalls (cause : Cause) : List CallId → State → State
  | [], s => s
  | c :: cs, s => endCalls cause cs (s.endCall c cause)

/-- A service window written, closed when absent. -/
def State.putWindow (s : State) (e : Entrance) (v : Option Nat) : State :=
  { s with mgmt := { s.mgmt with windows := put s.mgmt.windows e v } }

/-- An entrance link goes DOWN (R139): the frames waiting are discarded, its window closes, and its call ends
LINK-LOST. -/
def State.entranceDown (s : State) (e : Entrance) : State :=
  let s1 := (s.modLink (.entrance e) fun u => { u with up := false, liveness := none, sendList := [] }).putWindow e none
  endCalls .linkLost (s1.originCall (.entrance e)).toList s1

/-- The calls on the console lines, line 1 first. -/
def DeskUnit.lineCalls (d : DeskUnit) : List CallId := d.lines[0].call?.toList ++ d.lines[1].call?.toList

/-- The desk link goes DOWN (R95): the queued calls end DESK-CLOSED and the calls on the lines LINK-LOST. DESIGN CHOICE:
the queue in its order, then line 1 and line 2, and the grant events their completions make due after all of them; the
spec gives no order (notes/assumptions/20.md). -/
def State.deskDown (s : State) : State :=
  let s1 := s.modLink .desk fun u => { u with up := false, liveness := none }
  endCalls .linkLost s.desk.lineCalls (endCalls .deskClosed s.desk.queue s1)

/-- Whether the liveness timer's expiry takes the link DOWN (R138): the link is UP, and no valid frame has started the
timer again in the very millisecond in which the expiry reaches the unit. -/
def LinkUnit.expires (u : LinkUnit) : Bool := u.up && u.liveness != some livenessMs

/-- LIVENESS_TIMER_EXPIRY (R138, R139, R95). When a valid frame and the expiry reach the unit together and the frame is
taken first, the timer has been started again: the link stays UP, and nothing is reported. -/
def execLivenessTimerExpiry (l : Link) (s : State) : Host.Outcome State Fault Refusal :=
  if (s.link l).expires then
    match l with
    | .entrance e => .next ((s.entranceDown e).settle [])
    | .desk => .next (s.deskDown.settle [])
  else .next s

/-! ### Sending -/

/-- The STATUS period, 1 s (R141). -/
def statusPeriodMs : Nat := 1000

/-- STATUS_DUE (R141): a STATUS is handed, and its sequence raised, unless an earlier one still waits. -/
def execStatusDue (l : Link) (s : State) : Host.Outcome State Fault Refusal :=
  let s1 := s.modLink l fun u => { u with statusMs := statusPeriodMs }
  if (s.link l).sendList.any Frame.isStatus then .next s1
  else
    .next ((s1.sendFrame l (.status (s.statusBody l))).modLink l fun u => { u with sequence := u.sequence + 1 })

/-- The frame being sent is done, and the sending of the next one begins (R140). -/
def LinkUnit.sendNext (u : LinkUnit) : LinkUnit :=
  { u with sending := u.sendList.head?, sendList := u.sendList.tail }

/-- FRAME_SENT (R140). -/
def execFrameSent (l : Link) (s : State) : Host.Outcome State Fault Refusal := .next (s.modLink l LinkUnit.sendNext)

/-- NOTICE_TAKEN (R183): with the desk link UP and its send list empty, the head of the notice queue is taken with the
notices-lost flag, which is then cleared. -/
def execNoticeTaken (s : State) : Host.Outcome State Fault Refusal :=
  match s.mgmt.notices with
  | n :: ns =>
    if (s.link .desk).up && (s.link .desk).sendList.isEmpty then
      .next (({ s with mgmt := { s.mgmt with notices := ns, lost := false } } : State).sendFrame .desk
        (.notice n s.mgmt.lost))
    else .next s
  | [] => .next s

/-! ### Panel signals (spec/07, 7.4) -/

/-- CALL (R142). -/
def execCall (e : Entrance) (code : BitVec 16) (s : State) : Host.Outcome State Fault Refusal :=
  let (s1, ts) := (s.frameIn (.entrance e)).originate .visitor (.entrance e) (.code code)
  .next (s1.settle ts)

/-- CALL_DESK (R142). -/
def execCallDesk (e : Entrance) (s : State) : Host.Outcome State Fault Refusal :=
  let (s1, ts) := (s.frameIn (.entrance e)).originate .panelDesk (.entrance e) .desk
  .next (s1.settle ts)

/-- CANCEL (R143): ignored when the entrance is the origin of no live call. -/
def execCancel (e : Entrance) (s : State) : Host.Outcome State Fault Refusal :=
  let s1 := s.frameIn (.entrance e)
  match s1.originCall (.entrance e) with
  | some c => .next ((s1.cancelCall c).settle [])
  | none => .next s1

end Sys2Proof.Machine
end

