-- ==== Sys2Proof/Machine/Desk.lean ====
section
/-! DEFINITION. The desk unit (spec/05): the console lines, DESK-ANSWER with its desk claims, DESK-CALL, hold, resume,
end, release, and the desk open flag. -/

namespace Sys2Proof.Machine

open Sys2Proof

/-! ### Console lines (R96, R97) -/

/-- A call in TALK goes to HELD (R97). -/
def Call.toHeld (x : Call) : Call := if x.state = .talk then { x with state := .held } else x

/-- An ACTIVE line becomes HELD (R97): its console connection is broken and its call in TALK goes to HELD. -/
def State.holdLine (s : State) (l : LineNo) : State :=
  match s.desk.lines[l] with
  | .active c => ((s.setConsole l (.held c)).breakLine l).modCall c Call.toHeld
  | .held _ => s
  | .free => s

/-- A line becomes ACTIVE for its call (R97): a call in HELD returns to TALK with its console connection. -/
def State.activateLine (s : State) (l : LineNo) (c : CallId) : State :=
  let s1 := s.setConsole l (.active c)
  match s.call? c with
  | some x =>
    if x.state = .held then (s1.modCall c fun y => { y with state := .talk }).connectConsole l c else s1
  | none => s1

/-- A line is taken for a call (R96): the other line is put on HELD when it is ACTIVE, and the taken one is ACTIVE. -/
def State.takeLine (s : State) (l : LineNo) (c : CallId) : State :=
  (s.holdLine (otherLine l)).setConsole l (.active c)

/-! ### DESK-ANSWER (R100 to R103) -/

/-- The code of each desk signal (spec/13, 13.2). -/
def deskCallCode : Byte := 0x10

/-- DESK-ANSWER's code. -/
def deskAnswerCode : Byte := 0x11

/-- DESK-HOLD's code. -/
def deskHoldCode : Byte := 0x12

/-- DESK-RESUME's code. -/
def deskResumeCode : Byte := 0x13

/-- DESK-END's code. -/
def deskEndCode : Byte := 0x14

/-- DESK-RELEASE's code. -/
def deskReleaseCode : Byte := 0x15

/-- What a DESK-ANSWER takes: the named call's record, or the best call of the queue (R100). -/
def State.answerTarget (s : State) (named : Option CallId) : Option CallId :=
  match named with
  | some c => if s.desk.queue.elem c then some c else none
  | none => bestOf s.levelOf s.desk.queue

/-- The call a DESK-ANSWER byte names: outside C0 to C23 nothing, FFh no call. -/
def namedCall (rec : Byte) : Option (Option CallId) :=
  if rec = 0xFF then some none else (finOf 24 rec).map some

/-- The answered call on its line, with its latency captured (R100). -/
def Call.answeredAt (x : Call) (l : LineNo) : Call :=
  { x with waitKind := none, waitMs := 0, latency := some (tenths (x.offerMs.getD 0)), offerMs := none,
           line := some l }

/-- An entrance-origin call goes straight to TALK on its line (R101). -/
def State.answerEntrance (s : State) (l : LineNo) (c : CallId) (e : Entrance) : State :=
  let s1 := s.modCall c fun y => { y with state := .talk, talkMs := some 0 }
  ((s1.connectConsole l c).tellEntrance e .connected).tellLine l .connected

/-- A desk claim for one slot on the origin riser (R54, R102). -/
def State.claim (s : State) (l : LineNo) (c : CallId) (h : Handset) : State :=
  let s1 := s.modCall c fun y => { y with claim := true }
  match s1.call? c with
  | none => s1
  | some x =>
    let r := h.riser
    if s1.canGrant r then (s1.grantLowest c r).claimGranted c
    else if !s1.feedOn r || x.params.queue == 0 || decide (8 ≤ s1.arb.risers[r].wait.length) then s1.endCall c .noPath
    else (((s1.placeInWait r c).tellLine l .waiting).tone h .wait).preempt r c

/-- A call taken from the desk queue onto a line (R100): by its origin, it is in TALK or makes a claim. -/
def State.answerAtDesk (s : State) (c : CallId) (l : LineNo) : State :=
  match s.call? c with
  | none => s
  | some x =>
    let s1 := ((s.setDeskQueue (s.desk.queue.filter fun d => d != c)).takeLine l c).modCall c fun y => y.answeredAt l
    match x.origin with
    | .entrance e => s1.answerEntrance l c e
    | .handset h => s1.claim l c h
    | .line _ => s1

/-- DESK_ANSWER (R100). -/
def execDeskAnswer (rec : Byte) (s : State) : Host.Outcome State Fault Refusal :=
  let s1 := s.frameIn .desk
  match namedCall rec with
  | none => .next (s1.refuse deskAnswerCode .noSuch)
  | some named =>
    if !s1.desk.isOpen then .next (s1.refuse deskAnswerCode .deskClosed)
    else
      match s1.answerTarget named with
      | none => .next (s1.refuse deskAnswerCode .noCall)
      | some c =>
        match s1.desk.freeLine with
        | none => .next (s1.refuse deskAnswerCode .linesFull)
        | some l => .next ((s1.answerAtDesk c l).settle [])

/-! ### DESK-CALL (R104) -/

/-- A DESK-OUT call originated on a line (R104). -/
def State.originateDesk (s : State) (l : LineNo) (c : CallId) (code : BitVec 16) : State × List Task :=
  (((s.takeLine l c).takeRecord c (s.newCall .deskOut (.line l) (.code code)))).admission c

/-- DESK_CALL (R104). With the desk open flag clear it is refused DESK-CLOSED (R93). Before the first supply mode no
call can be admitted (R173), and an open desk's signal is then not taken (notes/assumptions/9.md). -/
def execDeskCall (code : BitVec 16) (s : State) : Host.Outcome State Fault Refusal :=
  let s1 := s.frameIn .desk
  if !s1.desk.isOpen then .next (s1.refuse deskCallCode .deskClosed)
  else if s1.supply.mode.isNone then .next s1
  else
    match s1.desk.freeLine, s1.freeRecord with
    | none, _ => .next (s1.refuse deskCallCode .linesFull)
    | some _, none => .next (s1.refuse deskCallCode .tableFull)
    | some l, some c =>
      let (s2, ts) := s1.originateDesk l c code
      .next (s2.settle ts)

/-! ### Hold, resume and end (R105 to R107) -/

/-- DESK_HOLD (R105). -/
def execDeskHold (line : Byte) (s : State) : Host.Outcome State Fault Refusal :=
  let s1 := s.frameIn .desk
  match lineOf line with
  | none => .next (s1.refuse deskHoldCode .badLine)
  | some l =>
    if s1.desk.lines[l].isActive then .next (s1.holdLine l) else .next (s1.refuse deskHoldCode .badLine)

/-- DESK_RESUME (R106). -/
def execDeskResume (line : Byte) (s : State) : Host.Outcome State Fault Refusal :=
  let s1 := s.frameIn .desk
  match lineOf line with
  | none => .next (s1.refuse deskResumeCode .badLine)
  | some l =>
    match s1.desk.lines[l] with
    | .held c => .next ((s1.holdLine (otherLine l)).activateLine l c)
    | .active _ => .next (s1.refuse deskResumeCode .badLine)
    | .free => .next (s1.refuse deskResumeCode .badLine)

/-- DESK_END (R107). -/
def execDeskEnd (line : Byte) (s : State) : Host.Outcome State Fault Refusal :=
  let s1 := s.frameIn .desk
  match lineOf line with
  | none => .next (s1.refuse deskEndCode .badLine)
  | some l =>
    match s1.desk.lines[l].call? with
    | some c => .next ((s1.cancelCall c).settle [])
    | none => .next (s1.refuse deskEndCode .badLine)

/-! ### Door release from the desk (R108) -/

/-- The call in TALK or HELD on a console line whose origin is an entrance (R108). -/
def State.lineCallFrom (s : State) (e : Entrance) : Option CallId :=
  s.findCall fun x => x.connected && x.origin == .entrance e && x.consoleLine.isSome

/-- DESK_RELEASE (R108). -/
def execDeskRelease (entrance : Byte) (s : State) : Host.Outcome State Fault Refusal :=
  let s1 := s.frameIn .desk
  match finOf 6 entrance with
  | none => .next (s1.refuse deskReleaseCode .noSuch)
  | some e =>
    let (accepted, s2) := s1.releaseDoor e
    if accepted then
      match s2.lineCallFrom e with
      | some c => .next ((s2.modCall c fun x => { x with doorReleased := true }).tellEntrance e .door)
      | none => .next s2
    else .next (s2.refuse deskReleaseCode .ignored)

/-! ### The desk open flag (R93, R94, R109) -/

/-- The desk open flag set (R93). -/
def State.openDesk (s : State) : State := { s with desk := { s.desk with isOpen := true } }

/-- The desk open flag cleared (R93, R94): the queued calls end DESK-CLOSED. One that is clear stays so, with nothing
more. DESIGN CHOICE: they end in queue order, so their WITHDRAW frames and CALL-END notices come in that order; the spec
gives none (notes/assumptions/40.md). -/
def State.closeDesk (s : State) : State :=
  if s.desk.isOpen then
    endCalls .deskClosed s.desk.queue { s with desk := { s.desk with isOpen := false } }
  else s

/-- DESK_OPEN, the console's signal (R93). -/
def execDeskOpen (s : State) : Host.Outcome State Fault Refusal := .next (s.frameIn .desk).openDesk

/-- DESK_CLOSE, the console's signal (R94). -/
def execDeskClose (s : State) : Host.Outcome State Fault Refusal := .next ((s.frameIn .desk).closeDesk.settle [])

end Sys2Proof.Machine
end

