-- ==== Sys2Proof/Machine/Feeds.lean ====
section
/-! DEFINITION. The measurement unit's filter and the feed monitor (spec/09, 9.1 and 9.2): conversions, shorts, sags,
switching a riser's feed on and off with what every block does on the report. -/

namespace Sys2Proof.Machine

open Sys2Proof

/-! ### The filter (R158) -/

/-- A channel after a conversion (R158). -/
def Channel.convert (k : Channel) (c : BitVec 10) : Channel :=
  { filtered := if k.seed then c.toNat else (3 * k.filtered + c.toNat) / 4, seed := false }

/-- A riser's feed voltage channel changed. -/
def State.modVoltage (s : State) (r : Riser) (f : Channel → Channel) : State :=
  { s with meas := { s.meas with voltage := upd s.meas.voltage r f } }

/-- A riser's feed current channel changed. -/
def State.modCurrent (s : State) (r : Riser) (f : Channel → Channel) : State :=
  { s with meas := { s.meas with current := upd s.meas.current r f } }

/-! ### A feed goes off -/

/-- Whether a feed going off concerns a call (R26). -/
def State.concerned (s : State) (r : Riser) (c : CallId) : Bool :=
  match s.call? c with
  | some x =>
    x.slots.any (fun p => p.1 == r) || s.arb.risers[r].wait.elem c || (s.neededRisers x).elem r ||
    x.ringSet.any (fun m => m.handset.riser == r) || x.originRiser == some r ||
    x.parties.any (fun h => h.riser == r)
  | none => false

/-- A riser controller whose feed has gone off (R131). -/
def RiserControl.silence (u : RiserControl) : RiserControl :=
  { u with
    presence := updAll u.presence fun _ p => if p = .present then .lost else p
    control := []
    controlTry := 0
    indications := []
    indicationTry := 0
    attention := []
    attentionPos := none
    survey := none
    use := .silent
    useMs := 0
    allClearMs := 0 }

/-- A running survey abandoned with its notice (R130). -/
def State.abandonSurvey (s : State) (r : Riser) : State :=
  match s.risers[r].survey with
  | some v => s.offer (.survey r v.replied true)
  | none => s

/-- The pairs of a riser removed from a call's slots (R51). -/
def Call.dropRiser (x : Call) (r : Riser) : Call := { x with slots := x.slots.filter fun p => p.1 != r }

/-- The slot arbiter takes back every slot of a riser, drops its reservations and breaks the connections that use its
slots (R51); no grant event arises. -/
def State.takeBack (s : State) (r : Riser) : State :=
  let s1 := s.modSlots r fun a =>
    { a with cells := Vector.replicate 4 { holder := none, reserved := none }, order := [] }
  (allCalls.foldl (fun s c => s.modCall c fun x => x.dropRiser r) s1).breakRiser r

/-- Every pending CLEAR of a riser settled (R29). DESIGN CHOICE: the calls are taken in record order, so those that
complete by it offer their CALL-END notices in that order; R29 and R131 give none (notes/assumptions/18.md). -/
def State.settleRiser (s : State) (r : Riser) : State :=
  allCalls.foldl (fun s c =>
    match s.call? c with
    | some x => (x.pendingClears.filter fun h => h.riser == r).foldl (fun s h => s.settleClear c h) s
    | none => s) s

/-- The nodes of a riser that are PRESENT. -/
def State.presentOn (s : State) (r : Riser) : List Handset :=
  (allNodes.map fun n => ({ riser := r, node := n } : Handset)).filter fun h => s.presenceOf h == .present

/-- Handsets reported LOST one after the other (R131, R4). -/
def reportLost : List Handset → State → State × List Task
  | [], s => (s, [])
  | h :: hs, s =>
    let (s1, ts) := s.handsetLost h
    let (s2, us) := reportLost hs s1
    (s2, ts ++ us)

/-- The feed monitor's part of a switch-off: the new state and retry count, the timers, the FEED notice (R163, R166). -/
def State.writeFeedOff (s : State) (r : Riser) (f : FeedState) (retries : Nat) : State :=
  (s.modFeed r fun x =>
    { x with state := f, retries := retries, settle := none, stable := none,
             retry := if f = .offRetry then some (tenthMs 50) else none }).offer (.feed r f retries)

/-- A feed that was ON goes off (R163, R166), and every block takes the report: R85, R130, R131, R51, R29, R26, R4. DESIGN
CHOICE: the grant events that the ends of calls make due on other risers are taken after all LINE-FAULT ends and LOST
reports, and before the ring timeouts of ring sets that the LOST reports emptied; the spec gives no order
(notes/assumptions/18.md). -/
def State.feedOff (s : State) (r : Riser) (f : FeedState) (retries : Nat) : State × List Task :=
  let calls := allCalls.filter (s.concerned r)
  let lost := s.presentOn r
  let s1 := s.writeFeedOff r f retries
  let s2 := if f = .offHeld .fault then s1.raise (.feedHeld r) else s1
  let s3 := ((s2.silenceRiser r).abandonSurvey r).modRiser r RiserControl.silence
  let s4 := (s3.takeBack r).settleRiser r
  reportLost lost (endCalls .lineFault calls s4)

/-- A short is taken (R163). -/
def State.takeShort (s : State) (r : Riser) : State × List Task :=
  let n := s.feeds[r].retries
  if n < 3 then s.feedOff r .offRetry (n + 1) else s.feedOff r (.offHeld .fault) 4

/-! ### A feed is switched on -/

/-- A riser controller that starts using its bus (R132). -/
def RiserControl.start (u : RiserControl) : RiserControl :=
  { u with pointer := none, lastPoll := .extra, turn := .attention, use := .idle, useMs := 0 }

/-- A feed is switched on with a retry count (R161), and the riser controller starts polling (R132). -/
def State.switchOn (s : State) (r : Riser) (retries : Nat) : State :=
  (((s.modFeed r fun x =>
    { x with state := .onNormal, retries := retries, retry := none, settle := some (tenthMs 1),
             stable := some (secondMs 30) }).offer (.feed r .onNormal retries)).modRiser r RiserControl.start)

/-- A feed moves between ON-NORMAL and ON-SAG (R165), with cutback on the fall (R81). -/
def State.sagTo (s : State) (r : Riser) (f : FeedState) : State :=
  ((s.modFeed r fun x => { x with state := f }).offer (.feed r f s.feeds[r].retries)).cutback r

/-! ### Conversions and timers -/

/-- A voltage value of an ON feed judged (R162, R165). -/
def State.judgeVoltage (s : State) (r : Riser) (mv : Nat) : State × List Task :=
  if mv < 6000 then s.takeShort r
  else
    match s.feeds[r].state with
    | .onNormal => (if mv < s.feeds[r].entry.sag then s.sagTo r .onSag else s, [])
    | .onSag => (if s.feeds[r].entry.sag + 1000 ≤ mv then s.sagTo r .onNormal else s, [])
    | .offRetry => (s, [])
    | .offHeld _ => (s, [])

/-- FEED_VOLTAGE_CONVERSION (R158, R162, R165): the filtered value is judged while the feed is ON and has settled. -/
def execFeedVoltageConversion (r : Riser) (c : BitVec 10) (s : State) : Host.Outcome State Fault Refusal :=
  let s1 := s.modVoltage r fun k => k.convert c
  if s1.feedOn r && s1.feeds[r].settle.isNone then
    let (s2, ts) := s1.judgeVoltage r (voltageMv s1.meas.voltage[r].filtered)
    .next (s2.settle ts)
  else .next s1

/-- FEED_CURRENT_CONVERSION (R158, R162): the raw value is judged while the feed is ON, settling or not. -/
def execFeedCurrentConversion (r : Riser) (c : BitVec 10) (s : State) : Host.Outcome State Fault Refusal :=
  let s1 := s.modCurrent r fun k => k.convert c
  if s1.feedOn r && decide (s1.feeds[r].entry.short ≤ currentMa c.toNat) then
    let (s2, ts) := s1.takeShort r
    .next (s2.settle ts)
  else .next s1

/-- SETTLE_END (R161): the voltage channel is reseeded. -/
def execSettleEnd (r : Riser) (s : State) : Host.Outcome State Fault Refusal :=
  if s.feeds[r].settle.isSome then
    .next ((s.modFeed r fun x => { x with settle := none }).modVoltage r fun k => { k with seed := true })
  else .next s

/-- RETRY_EXPIRY (R164): the feed is switched on again with its retry count kept. -/
def execRetryExpiry (r : Riser) (s : State) : Host.Outcome State Fault Refusal :=
  if s.feeds[r].state = .offRetry then .next ((s.switchOn r s.feeds[r].retries).settle []) else .next s

/-- STABLE_EXPIRY (R164): the retry count returns to 0. -/
def execStableExpiry (r : Riser) (s : State) : Host.Outcome State Fault Refusal :=
  if s.feeds[r].stable.isSome then .next (s.modFeed r fun x => { x with retries := 0, stable := none })
  else .next s

/-! ### Switching by request -/

/-- A feed switched off by order (R166): from ON with every effect of a feed going off, from OFF-RETRY with a FEED
notice alone, from START silently; an OFF-HELD feed with another hold cause stays. -/
def State.orderOff (s : State) (r : Riser) : State × List Task :=
  match s.feeds[r].state with
  | .onNormal => s.feedOff r (.offHeld .order) s.feeds[r].retries
  | .onSag => s.feedOff r (.offHeld .order) s.feeds[r].retries
  | .offRetry => (s.writeFeedOff r (.offHeld .order) s.feeds[r].retries, [])
  | .offHeld .start => (s.modFeed r fun x => { x with state := .offHeld .order }, [])
  | .offHeld .fault => (s, [])
  | .offHeld .order => (s, [])

/-- A feed disabled by a write (R167): as an off request, and an OFF-HELD feed with hold cause FAULT takes ORDER. -/
def State.disableFeed (s : State) (r : Riser) : State × List Task :=
  if s.feeds[r].state = .offHeld .fault then (s.modFeed r fun x => { x with state := .offHeld .order }, [])
  else s.orderOff r

end Sys2Proof.Machine
end

