-- ==== Sys2Proof/Machine/Supply.lean ====
section
/-! DEFINITION. The supply monitor (spec/09, 9.3): mains samples, the battery, the supply mode and the values it
pushes. -/

namespace Sys2Proof.Machine

open Sys2Proof

/-! ### The pushed values (R172) -/

/-- The usable slot count pushed (R50): a rise makes a grant event due on each riser whose held count is below it. -/
def State.pushUsable (s : State) (n : Nat) : State :=
  let due := if s.arb.usable < n then allRisers.filter fun r => decide (s.arb.risers[r].held < n) else []
  { s with arb := { s.arb with usable := n, due := s.arb.due ++ due } }

/-- The admission floor pushed (R14). -/
def State.pushFloor (s : State) (n : Nat) : State := { s with ctl := { s.ctl with floor := n } }

/-- The poll pause pushed (R119): it applies from the next wait. -/
def State.pushPause (s : State) (ms : Nat) : State :=
  { s with risers := updAll s.risers fun _ u => { u with pause := ms } }

/-- The values of a mode pushed to their owners (R172). -/
def State.pushMode (s : State) (m : Mode) : State :=
  let p := s.supply.record
  (((s.pushPercent (p.percentOf m)).pushUsable (p.slotsOf m)).pushFloor (p.floorOf m)).pushPause (p.pauseOf m)

/-- The supply mode written. -/
def State.putMode (s : State) (m : Mode) : State := { s with supply := { s.supply with mode := some m } }

/-- SUPPLY-DEPLETED raised on entry into DEPLETED (R171, R173). -/
def State.raiseDepleted (s : State) (m : Mode) : State := if m = .depleted then s.raise .supplyDepleted else s

/-- A change of supply mode (R171, R172). -/
def State.changeMode (s : State) (m : Mode) : State :=
  (((s.putMode m).offer (.supply m)).pushMode m).raiseDepleted m

/-! ### Mains (R170, R171) -/

/-- The debounced mains written. -/
def State.putMains (s : State) (present : Bool) : State :=
  { s with supply := { s.supply with mains := some present } }

/-- The mode a change of debounced mains leads to (R171). -/
def Mode.onMains (m : Mode) (present : Bool) : Option Mode :=
  match m with
  | .full => if present then none else some .reserve
  | .reserve => if present then some .full else none
  | .depleted => if present then some .full else none

/-- A change of debounced mains taken (R171); before the first mode it changes no mode (R173). -/
def State.takeMains (s : State) (present : Bool) : State :=
  let s1 := s.putMains present
  match s1.supply.mode.bind fun m => m.onMains present with
  | some m => s1.changeMode m
  | none => s1

/-- The previous samples written. -/
def State.putSamples (s : State) (xs : List Bool) : State := { s with supply := { s.supply with samples := xs } }

/-- A sample in place of the older of two (R170). -/
def joinSamples (xs : List Bool) (x : Bool) : List Bool := (xs ++ [x]).drop ((xs.length + 1) - 2)

/-- DEBOUNCED_MAINS_CHANGE (R170, R171): the third agreeing sample has changed the debounced mains. -/
def execDebouncedMainsChange (present : Bool) (s : State) : Host.Outcome State Fault Refusal :=
  if s.supply.mains = some present then .next s
  else .next (((s.takeMains present).putSamples [present, present]).settle [])

/-- MAINS_SENSE_SAMPLE (R170): a sample that agrees with the two before it and differs from the debounced mains changes
it; the sample then joins the previous samples. -/
def execMainsSenseSample (present : Bool) (s : State) : Host.Outcome State Fault Refusal :=
  if s.supply.samples = [present, present] ∧ s.supply.mains ≠ some present then
    .next (((s.takeMains present).putSamples [present, present]).settle [])
  else .next (s.putSamples (joinSamples s.supply.samples present))

/-! ### The battery (R171) -/

/-- The mode a battery value leads to (R171). -/
def Mode.onBattery (m : Mode) (depleted mv : Nat) : Option Mode :=
  match m with
  | .full => none
  | .reserve => if mv < depleted then some .depleted else none
  | .depleted => if depleted + 300 ≤ mv then some .reserve else none

/-- BATTERY_CONVERSION (R158, R171). -/
def execBatteryConversion (c : BitVec 10) (s : State) : Host.Outcome State Fault Refusal :=
  let k := s.meas.battery.convert c
  let s1 : State := { s with meas := { s.meas with battery := k } }
  match s1.supply.mode.bind fun m => m.onBattery s1.supply.record.depleted (batteryMv k.filtered) with
  | some m => .next ((s1.changeMode m).settle [])
  | none => .next s1

/-! ### The first mode (R173) -/

/-- The first supply mode (R173). -/
def firstMode (mains : Bool) (depleted mv : Nat) : Mode :=
  if mains then .full else if depleted ≤ mv then .reserve else .depleted

/-- FIRST_SUPPLY_MODE (R173): once the debounced mains and the battery have been read; no SUPPLY notice. DESIGN CHOICE:
the battery is judged by its filtered value as it stands when the event is taken; R173 says "the battery value" and R190
"the first battery value", and conversions may have come between (notes/assumptions/51.md). -/
def execFirstSupplyMode (s : State) : Host.Outcome State Fault Refusal :=
  match s.supply.mode, s.supply.mains, s.meas.battery.seed with
  | none, some mains, false =>
    let m := firstMode mains s.supply.record.depleted (batteryMv s.meas.battery.filtered)
    .next ((((s.putMode m).pushMode m).raiseDepleted m).settle [])
  | _, _, _ => .next s

end Sys2Proof.Machine
end

