-- ==== Sys2Proof/Machine/CallTimers.lean ====
section
/-! DEFINITION. The expiries of calls: cadence segments (spec/04, 4.1), the talk warning and limit (R21), and the queue
limits (R59, R99). -/

namespace Sys2Proof.Machine

open Sys2Proof

/-- A call's cycle completes (R78): the next cycle starts at on1, or the limit is reached and a ring timeout is
reported. -/
def State.cycleDone (s : State) (c : CallId) (x : Call) : State × List Task :=
  let s1 := s.modCall c fun y => { y with cycles := x.cycles + 1 }
  if x.cycles + 1 < x.params.cycles then (s1.startSegment c .on1, [])
  else (s1.modCall c fun y => { y with segment := none }, [.ringTimeout c])

/-- A segment of a call's cadence ends (R77). -/
def State.segmentEnd (s : State) (c : CallId) (x : Call) (g : Segment) : State × List Task :=
  let s1 := if g.isOn then s.endSounding c else s
  match g.following.find? fun h => (s.profileOf x).units h != 0 with
  | some h => (s1.startSegment c h, [])
  | none => s1.cycleDone c x

/-- CADENCE_SEGMENT_END (R77, R78). A FREE record and a call with no segment under way are left alone. -/
def execCadenceSegmentEnd (c : CallId) (s : State) : Host.Outcome State Fault Refusal :=
  match s.call? c with
  | some x =>
    match x.state, x.segment with
    | .ringing, some (g, _) =>
      let (s1, ts) := s.segmentEnd c x g
      .next (s1.settle ts)
    | _, _ => .next s
  | none => .next s

/-- TONE WARN to each handset party (R21). DESIGN CHOICE: the parties are told in the order of `Call.parties`, so of a
NEIGHBOUR call within one riser the answering handset's joins the indication queue first; R21 gives the two no order
(notes/assumptions/47.md). -/
def warnParties : List Handset → State → State
  | [], s => s
  | h :: hs, s => warnParties hs (s.tone h .warn)

/-- A call is warned (R21): its handset parties, its entrance origin, and the console line that holds it. -/
def State.warn (s : State) (x : Call) : State :=
  let s1 := warnParties x.parties s
  let s2 :=
    match x.origin with
    | .entrance e => s1.tellEntrance e .warn
    | _ => s1
  s2.tellLine? x.consoleLine .warn

/-- TALK_WARNING (R21): talk elapsed has reached the latched talk limit less 10 seconds; a limit below 20 seconds gives
no warning. -/
def execTalkWarning (c : CallId) (s : State) : Host.Outcome State Fault Refusal :=
  match s.call? c with
  | some x =>
    if x.connected && decide (20 ≤ x.params.talk) then
      .next (((s.modCall c fun y => { y with talkMs := some (secondMs (x.params.talk - 10)) }).warn x).settle [])
    else .next s
  | none => .next s

/-- TALK_LIMIT (R21): talk elapsed has reached the latched talk limit. -/
def execTalkLimit (c : CallId) (s : State) : Host.Outcome State Fault Refusal :=
  match s.call? c with
  | some x =>
    if x.connected then
      .next (((s.modCall c fun y => { y with talkMs := some (secondMs x.params.talk) }).endCall c .timeLimit).settle [])
    else .next s
  | none => .next s

/-- QUEUE_LIMIT (R59): a call in a riser wait list. -/
def execQueueLimit (c : CallId) (s : State) : Host.Outcome State Fault Refusal :=
  match (s.call? c).bind Call.waitKind with
  | some (.riser _) => .next ((s.endCall c .noPath).settle [])
  | some .desk => .next s
  | none => .next s

/-- DESK_QUEUE_LIMIT (R99): a call in the desk queue. -/
def execDeskQueueLimit (c : CallId) (s : State) : Host.Outcome State Fault Refusal :=
  match (s.call? c).bind Call.waitKind with
  | some .desk => .next ((s.endCall c .deskBusy).settle [])
  | some (.riser _) => .next s
  | none => .next s

end Sys2Proof.Machine
end

