-- ==== Sys2Proof/Machine/Manage.lean ====
section
/-! DEFINITION. The management unit (spec/10): the gate every request passes (R174, R176), the orders, the queries,
conditions, the notice mask and the service windows. -/

namespace Sys2Proof.Machine

open Sys2Proof

/-! ### The gate (R176) -/

/-- What a request's owner answers: the reply code and the reply data. -/
structure Answer where
  code : ReplyCode
  data : List Byte := []
  deriving DecidableEq, Repr

/-- A reply handed to the link the request came by (R176). -/
def State.reply (s : State) (src : Link) (tag req : Byte) (a : Answer) : State :=
  s.sendFrame src (.reply { tag := tag, code := a.code, request := some req, data := a.data })

/-- The DENIED reply: the tag and the reply code alone (R174). -/
def State.deny (s : State) (src : Link) (tag : Byte) : State :=
  s.sendFrame src (.reply { tag := tag, code := .denied, request := none, data := [] })

/-- A management request taken (R174, R176): its frame keeps the link alive; a source that is not allowed is answered
DENIED; otherwise the owner takes the request, and its reply goes back on the link the request came by. DESIGN CHOICE:
the reply joins the send list behind the frames that the request's own effect hands to the same link; the spec gives no
order (notes/assumptions/44.md). -/
def State.manage (s : State) (src : Link) (tag req : Byte) (owner : State → State × Answer) : State :=
  let s1 := s.frameIn src
  if s1.sourceAllowed src then
    let (s2, a) := owner s1
    s2.reply src tag req a
  else s1.deny src tag

/-- A request whose table index or operand names nothing is answered BAD-INDEX (check 4 of R176). -/
def withIndex {α : Type} (i : Option α) (owner : α → State → State × Answer) (s : State) : State × Answer :=
  match i with
  | some x => owner x s
  | none => (s, { code := .badIndex })

/-- A table write or clear: BAD-INDEX, then STORE-BUSY while a SAVE is in progress, then its owner (checks 4 and 5). -/
def tableWrite {α : Type} (i : Option α) (owner : α → State → State × Answer) (s : State) : State × Answer :=
  withIndex i (fun x t => if t.saving then (t, { code := .storeBusy }) else owner x t) s

/-- MANAGE_EMPTY_BODY (R176): no request, no reply; the frame keeps the link alive. -/
def execManageEmptyBody (l : Link) (s : State) : Host.Outcome State Fault Refusal := .next (s.frameIn l)

/-- The request code of SERVICE-WINDOW (spec/13, 13.3). -/
def serviceWindowCode : Byte := 0x0C

/-- MANAGE_UNKNOWN_REQUEST (R176, checks 2 and 3). Check 1 comes first: a SERVICE-WINDOW from an entrance link is
DENIED, its window open or not (R174), whatever the length of its body. -/
def execManageUnknownRequest (src : Link) (tag code : Byte) (badTable : Bool) (s : State) :
    Host.Outcome State Fault Refusal :=
  if isEntranceLink src && code == serviceWindowCode then .next ((s.frameIn src).deny src tag)
  else .next (s.manage src tag code fun t => (t, { code := if badTable then .badTable else .badRequest }))

/-! ### Orders (R178) -/

/-- A DOOR-RELEASE taken by its door unit. -/
def releaseByRequest (e : Entrance) (s : State) : State × Answer :=
  let (accepted, s1) := s.releaseDoor e
  (s1, { code := if accepted then .ok else .ignored })

/-- DOOR_RELEASE (R178). -/
def execDoorRelease (src : Link) (tag entrance : Byte) (s : State) : Host.Outcome State Fault Refusal :=
  .next (s.manage src tag 0x08 (withIndex (finOf 6 entrance) releaseByRequest))

/-- A CALL-CLEAR taken by the call controller (R26, R178). -/
def clearCall (c : CallId) (s : State) : State × Answer :=
  match s.call? c with
  | some x =>
    if x.state = .ending then (s, { code := .ignored })
    else ((s.endCall c .cleared).settle [], { code := .ok })
  | none => (s, { code := .ignored })

/-- CALL_CLEAR (R178). -/
def execCallClear (src : Link) (tag rec : Byte) (s : State) : Host.Outcome State Fault Refusal :=
  .next (s.manage src tag 0x09 (withIndex (finOf 24 rec) clearCall))

/-- A RISER-FEED on (R166). -/
def feedOnByRequest (r : Riser) (s : State) : State × Answer :=
  if !s.feeds[r].entry.enabled then (s, { code := .ignored })
  else if s.feedOn r then (s, { code := .ok })
  else ((s.switchOn r 0).settle [], { code := .ok })

/-- A RISER-FEED off (R166). -/
def feedOffByRequest (r : Riser) (s : State) : State × Answer :=
  let (s1, ts) := s.orderOff r
  (s1.settle ts, { code := .ok })

/-- A RISER-FEED taken by the feed monitor (R166). -/
def switchFeed (onOff : Byte) (r : Riser) (s : State) : State × Answer :=
  match flagOf onOff with
  | some true => feedOnByRequest r s
  | some false => feedOffByRequest r s
  | none => (s, { code := .badValue })

/-- RISER_FEED (R166). -/
def execRiserFeed (src : Link) (tag riser onOff : Byte) (s : State) : Host.Outcome State Fault Refusal :=
  .next (s.manage src tag 0x0A (withIndex (finOf 4 riser) (switchFeed onOff)))

/-- A RISER-SURVEY taken by the riser controller (R127). -/
def startSurvey (r : Riser) (s : State) : State × Answer :=
  if s.risers[r].survey.isSome then (s, { code := .busy })
  else if !s.feedOn r then (s.offer (.survey r [] true), { code := .ok })
  else
    (((s.modRiser r fun u => { u with survey := some { next := 0, replied := [] } }).checkSurvey r).settle [],
     { code := .ok })

/-- RISER_SURVEY (R127). -/
def execRiserSurvey (src : Link) (tag riser : Byte) (s : State) : Host.Outcome State Fault Refusal :=
  .next (s.manage src tag 0x0B (withIndex (finOf 4 riser) startSurvey))

/-- MANAGE_DESK_OPEN (R109). -/
def execManageDeskOpen (src : Link) (tag : Byte) (s : State) : Host.Outcome State Fault Refusal :=
  .next (s.manage src tag 0x0D fun t => (t.openDesk, { code := .ok }))

/-- MANAGE_DESK_CLOSE (R109). -/
def execManageDeskClose (src : Link) (tag : Byte) (s : State) : Host.Outcome State Fault Refusal :=
  .next (s.manage src tag 0x0E fun t => (t.closeDesk.settle [], { code := .ok }))

/-- SET_MASK (R184): bits 9 to 15 are not read. -/
def execSetMask (src : Link) (tag : Byte) (mask : BitVec 16) (s : State) : Host.Outcome State Fault Refusal :=
  .next (s.manage src tag 0x07 fun t =>
    ({ t with mgmt := { t.mgmt with mask := mask.extractLsb' 0 9 } }, { code := .ok }))

/-! ### Service windows (R174, R175) -/

/-- A SERVICE-WINDOW from the desk link (R174). -/
def openWindow (minutes : Byte) (e : Entrance) (s : State) : State × Answer :=
  if minutes = 0 then (s.putWindow e none, { code := .ok })
  else
    (s.putWindow e (some (secondMs (60 * min 60 minutes.toNat))), { code := clampReply (decide (60 < minutes.toNat)) })

/-- SERVICE_WINDOW (R174): DENIED from any entrance link, its own window open or not. -/
def execServiceWindow (src : Link) (tag entrance minutes : Byte) (s : State) : Host.Outcome State Fault Refusal :=
  match src with
  | .entrance _ => .next ((s.frameIn src).deny src tag)
  | .desk => .next (s.manage src tag 0x0C (withIndex (finOf 6 entrance) (openWindow minutes)))

/-- SERVICE_WINDOW_EXPIRY (R175). DESIGN CHOICE: it closes the window also when a SERVICE-WINDOW taken just before it
has started the window again (notes/assumptions/58.md). -/
def execServiceWindowExpiry (e : Entrance) (s : State) : Host.Outcome State Fault Refusal :=
  .next (s.putWindow e none)

/-! ### Conditions (R182) -/

/-- A CLEAR-CONDITION for an instance (R182): cleared, and raised again at once when its cause persists. -/
def clearInstance (k : Condition) (s : State) : State × Answer :=
  if s.mgmt.conditions.latched k then
    let s1 := s.setCondition false k
    if s.causePersists k then (s1.raise k, { code := .busy }) else (s1, { code := .ok })
  else (s, { code := .ok })

/-- CLEAR_CONDITION (R182). -/
def execClearCondition (src : Link) (tag cond inst : Byte) (s : State) : Host.Outcome State Fault Refusal :=
  .next (s.manage src tag 0x06 fun t =>
    match conditionOf cond inst with
    | .ok k => clearInstance k t
    | .error e => (t, { code := e }))

/-! ### Queries (R179, R180, R47) -/

/-- QUERY_CALLS (R179). -/
def execQueryCalls (src : Link) (tag start : Byte) (s : State) : Host.Outcome State Fault Refusal :=
  .next (s.manage src tag 0x04 (withIndex (finOf 24 start) fun c t => (t, { code := .ok, data := t.callsData c })))

/-- A QUERY-STATUS section (R180). -/
def statusSection (section_ which : Byte) (s : State) : State × Answer :=
  match section_.toNat with
  | 1 => (s, { code := .ok, data := s.generalData })
  | 2 => withIndex (finOf 4 which) (fun r t => (t, { code := .ok, data := t.riserData r })) s
  | 3 => withIndex (finOf 6 which) (fun e t => (t, { code := .ok, data := t.entranceData e })) s
  | 4 => (s, { code := .ok, data := (s.link .desk).data })
  | _ => (s, { code := .badValue })

/-- QUERY_STATUS (R180). -/
def execQueryStatus (src : Link) (tag section_ which : Byte) (s : State) : Host.Outcome State Fault Refusal :=
  .next (s.manage src tag 0x05 (statusSection section_ which))

/-- A READ-ENTRY taken by the table's owner (R47): the entry as it stands. -/
def readTable (table : Byte) (i : EntryIndex) (s : State) : State × Answer :=
  match table.toNat with
  | 1 => withIndex (entryOf 250 i) (fun k t => (t, { code := .ok, data := apartmentBytes t.dir.entries[k] })) s
  | 2 => withIndex (handsetOf i) (fun h t => (t, { code := .ok, data := (t.handsetEntry h).bytes })) s
  | 3 => withIndex (entryOf 6 i) (fun k t => (t, { code := .ok, data := (t.dir.classes[k]).bytes })) s
  | 4 => withIndex (entryOf 4 i) (fun k t => (t, { code := .ok, data := (t.dir.profiles[k]).bytes })) s
  | 5 => withIndex (entryOf 6 i) (fun k t => (t, { code := .ok, data := (t.doors[k]).entry.bytes })) s
  | 6 => withIndex (entryOf 4 i) (fun k t => (t, { code := .ok, data := (t.feeds[k]).entry.bytes })) s
  | 7 => withIndex (entryOf 1 i) (fun _ t => (t, { code := .ok, data := t.supply.record.bytes })) s
  | _ => (s, { code := .badTable })

/-- READ_ENTRY (R47). -/
def execReadEntry (src : Link) (tag table : Byte) (index : EntryIndex) (s : State) :
    Host.Outcome State Fault Refusal :=
  .next (s.manage src tag 0x01 (readTable table index))

end Sys2Proof.Machine
end

