-- ==== Sys2Proof/Machine/Tables.lean ====
section
/-! DEFINITION. The writes and clears of the seven tables (spec/10, 10.3), each by its owner's rule. -/

namespace Sys2Proof.Machine

open Sys2Proof

/-- WRITE-ENTRY's request code (spec/13, 13.3). -/
def writeCode : Byte := 0x02

/-- CLEAR-ENTRY's request code (spec/13, 13.3). -/
def clearCode : Byte := 0x03

/-! ### Directory (R35 to R38) -/

/-- A directory entry written, `none` for unused. -/
def State.putEntry (s : State) (i : DirIndex) (a : Option Apartment) : State :=
  { s with dir := { s.dir with entries := put s.dir.entries i a } }

/-- Whether another used entry satisfies `p` (R36). -/
def State.otherEntry (s : State) (i : DirIndex) (p : Apartment → Bool) : Bool :=
  (List.finRange 250).any fun j =>
    j != i &&
    match s.dir.entries[j] with
    | some a => p a
    | none => false

/-- A write that would break a uniqueness rule (R36). -/
def State.duplicates (s : State) (i : DirIndex) (a : Apartment) : Bool :=
  s.otherEntry i fun b => b.code == a.code || (b.riser == a.riser && b.nodes.any fun n => a.nodes.elem n)

/-- An entry in use: the target or the original apartment of a live call (R37). -/
def State.entryInUse (s : State) (i : DirIndex) : Bool :=
  (s.findCall fun x => x.target == .apartment i || x.original == some i).isSome

/-- Whether a write leaves code, riser and handsets list as they are (R37). -/
def Apartment.sameHome (a b : Apartment) : Bool := a.code == b.code && a.riser == b.riser && a.nodes == b.nodes

/-- Whether a write is refused for the entry's live use (R37). -/
def State.writeInUse (s : State) (i : DirIndex) (a : Apartment) : Bool :=
  s.entryInUse i &&
  match s.dir.entries[i] with
  | some b => !a.sameHome b
  | none => true

/-- A directory write taken by the directory unit (R35). -/
def writeDirectory (w : DirectoryWrite) (i : DirIndex) (s : State) : State × Answer :=
  match DirectoryWrite.apartment i w with
  | none => (s, { code := .badValue })
  | some a =>
    if s.duplicates i a then (s, { code := .duplicate })
    else if s.writeInUse i a then (s, { code := .inUse })
    else (s.putEntry i (some a), { code := .ok })

/-- WRITE_ENTRY_DIRECTORY (R35). -/
def execWriteEntryDirectory (src : Link) (tag : Byte) (index : EntryIndex) (w : DirectoryWrite) (s : State) :
    Host.Outcome State Fault Refusal :=
  .next (s.manage src tag writeCode (tableWrite (entryOf 250 index) (writeDirectory w)))

/-- A directory clear taken by the directory unit (R38). -/
def clearDirectory (i : DirIndex) (s : State) : State × Answer :=
  if s.dir.entries[i].isSome && s.entryInUse i then (s, { code := .inUse })
  else (s.putEntry i none, { code := .ok })

/-- CLEAR_ENTRY_DIRECTORY (R38). -/
def execClearEntryDirectory (src : Link) (tag : Byte) (index : EntryIndex) (s : State) :
    Host.Outcome State Fault Refusal :=
  .next (s.manage src tag clearCode (tableWrite (entryOf 250 index) clearDirectory))

/-! ### Handset table (R40, R41) -/

/-- A handset table entry written. -/
def State.putHandset (s : State) (h : Handset) (x : HandsetEntry) : State :=
  { s with dir := { s.dir with handsets := upd s.dir.handsets h.riser fun row => put row h.node x } }

/-- An address enrolled at its riser controller (R40, R114). -/
def State.enrol (s : State) (h : Handset) : State :=
  s.putNode h (if s.feedOn h.riser then .present else .lost) 0

/-- Whether the message at the head of the control queue is on the bus, its reply window open. -/
def RiserControl.sendsCommand (u : RiserControl) (n : Node) : Bool :=
  u.use == .control && u.control.head?.map Command.node == some n

/-- Whether the message at the head of the indication queue is on the bus, its reply window open. -/
def RiserControl.sendsIndication (u : RiserControl) (n : Node) : Bool :=
  u.use == .indication && u.indications.head?.map IndicationEntry.node == some n

/-- Messages for an un-enrolled node out of both queues, but for one whose exchange is under way, which runs to its
settlement (R114). -/
def RiserControl.removeUnenrolled (u : RiserControl) (n : Node) : RiserControl :=
  let keepC := if u.sendsCommand n then 1 else 0
  let keepI := if u.sendsIndication n then 1 else 0
  { u with
    control := u.control.take keepC ++ (u.control.drop keepC).filter fun m => m.node != n
    controlTry := if keepC = 0 ∧ u.control.head?.map Command.node = some n then 0 else u.controlTry
    indications := u.indications.take keepI ++ (u.indications.drop keepI).filter fun e => e.node != n
    indicationTry := if keepI = 0 ∧ u.indications.head?.map IndicationEntry.node = some n then 0 else u.indicationTry }

/-- An address un-enrolled at its riser controller (R40, R114): ABSENT, out of the attention list, its messages removed
and its CLEARs reported dropped. -/
def State.unenrol (s : State) (h : Handset) : State :=
  let u := s.risers[h.riser]
  let clears := clearsFor h.node (u.control.drop (if u.sendsCommand h.node then 1 else 0))
  ((s.putNode h .absent 0).modRiser h.riser fun v => (v.removeUnenrolled h.node).leaveAttention h.node).dropClears h
    clears

/-- A handset entry written with the report of a changed enrolment (R40); a survey with nothing left to probe ends
(R129). -/
def State.writeHandset (s : State) (h : Handset) (x : HandsetEntry) : State :=
  let old := (s.handsetEntry h).enrolled
  let s1 := s.putHandset h x
  let s2 := if x.enrolled = old then s1 else if x.enrolled then s1.enrol h else s1.unenrol h
  match s2.risers[h.riser].use with
  | .probe _ => s2
  | _ => s2.checkSurvey h.riser

/-- A handset write or clear taken by the directory unit (R41): un-enrolling a handset that is not free is refused. -/
def takeHandset (x : HandsetEntry) (code : ReplyCode) (h : Handset) (s : State) : State × Answer :=
  if (s.handsetEntry h).enrolled && !x.enrolled && !s.isFree h then (s, { code := .inUse })
  else ((s.writeHandset h x).settle [], { code := code })

/-- WRITE_ENTRY_HANDSET (R41). -/
def execWriteEntryHandset (src : Link) (tag : Byte) (index : EntryIndex) (w : HandsetWrite) (s : State) :
    Host.Outcome State Fault Refusal :=
  .next (s.manage src tag writeCode (tableWrite (handsetOf index) fun h t =>
    match HandsetWrite.entry w with
    | some (x, code) => takeHandset x code h t
    | none => (t, { code := .badValue })))

/-- CLEAR_ENTRY_HANDSET (R41). -/
def execClearEntryHandset (src : Link) (tag : Byte) (index : EntryIndex) (s : State) :
    Host.Outcome State Fault Refusal :=
  .next (s.manage src tag clearCode (tableWrite (handsetOf index) (takeHandset .default .ok)))

/-! ### Class table and cadence profiles (R42, R45) -/

/-- A class table entry written. -/
def State.putClass (s : State) (k : Fin 6) (x : ClassParams) : State :=
  { s with dir := { s.dir with classes := put s.dir.classes k x } }

/-- WRITE_ENTRY_CLASS (R42). -/
def execWriteEntryClass (src : Link) (tag : Byte) (index : EntryIndex) (w : ClassWrite) (s : State) :
    Host.Outcome State Fault Refusal :=
  .next (s.manage src tag writeCode (tableWrite (entryOf 6 index) fun k t =>
    match ClassWrite.params w with
    | some (x, code) => (t.putClass k x, { code := code })
    | none => (t, { code := .badValue })))

/-- CLEAR_ENTRY_CLASS (R42). -/
def execClearEntryClass (src : Link) (tag : Byte) (index : EntryIndex) (s : State) :
    Host.Outcome State Fault Refusal :=
  .next (s.manage src tag clearCode (tableWrite (entryOf 6 index) fun k t =>
    (t.putClass k ClassParams.defaults[k], { code := .ok })))

/-- A cadence profile written. -/
def State.putProfile (s : State) (k : Fin 4) (x : Profile) : State :=
  { s with dir := { s.dir with profiles := put s.dir.profiles k x } }

/-- WRITE_ENTRY_PROFILE (R45). -/
def execWriteEntryProfile (src : Link) (tag : Byte) (index : EntryIndex) (w : ProfileWrite) (s : State) :
    Host.Outcome State Fault Refusal :=
  .next (s.manage src tag writeCode (tableWrite (entryOf 4 index) fun k t =>
    match ProfileWrite.profile w with
    | some (x, code) => (t.putProfile k x, { code := code })
    | none => (t, { code := .badValue })))

/-- CLEAR_ENTRY_PROFILE (R45). -/
def execClearEntryProfile (src : Link) (tag : Byte) (index : EntryIndex) (s : State) :
    Host.Outcome State Fault Refusal :=
  .next (s.manage src tag clearCode (tableWrite (entryOf 4 index) fun k t =>
    (t.putProfile k Profile.defaults[k], { code := .ok })))

/-! ### Door table (R155) -/

/-- A door table entry written. -/
def State.putDoorEntry (s : State) (e : Entrance) (x : DoorEntry) : State := s.modDoor e fun d => { d with entry := x }

/-- WRITE_ENTRY_DOOR (R155). -/
def execWriteEntryDoor (src : Link) (tag : Byte) (index : EntryIndex) (w : DoorWrite) (s : State) :
    Host.Outcome State Fault Refusal :=
  .next (s.manage src tag writeCode (tableWrite (entryOf 6 index) fun e t =>
    match DoorWrite.entry w with
    | some (x, code) => (t.putDoorEntry e x, { code := code })
    | none => (t, { code := .badValue })))

/-- CLEAR_ENTRY_DOOR (R155). -/
def execClearEntryDoor (src : Link) (tag : Byte) (index : EntryIndex) (s : State) :
    Host.Outcome State Fault Refusal :=
  .next (s.manage src tag clearCode (tableWrite (entryOf 6 index) fun e t =>
    (t.putDoorEntry e .default, { code := .ok })))

/-! ### Riser table (R167) -/

/-- The feed switched by a change of enabled, before the rest of the entry acts (R167, notes/assumptions/13.md). -/
def State.switchEnabled (s : State) (r : Riser) (old new : Bool) : State × List Task :=
  if old = new then (s, []) else if new then (s.switchOn r 0, []) else s.disableFeed r

/-- A riser table entry written (R167): a change of enabled acts at once, and so does the ring budget (R81). -/
def State.writeRiser (s : State) (r : Riser) (x : RiserEntry) : State :=
  let old := s.feeds[r].entry.enabled
  let (s1, ts) := (s.modFeed r fun f => { f with entry := { x with budget := f.entry.budget } }).switchEnabled r old x.enabled
  (((s1.modFeed r fun f => { f with entry := x }).cutback r)).settle ts

/-- WRITE_ENTRY_RISER (R167). -/
def execWriteEntryRiser (src : Link) (tag : Byte) (index : EntryIndex) (w : RiserWrite) (s : State) :
    Host.Outcome State Fault Refusal :=
  .next (s.manage src tag writeCode (tableWrite (entryOf 4 index) fun r t =>
    match RiserWrite.entry w with
    | some (x, code) => (t.writeRiser r x, { code := code })
    | none => (t, { code := .badValue })))

/-- CLEAR_ENTRY_RISER (R167). -/
def execClearEntryRiser (src : Link) (tag : Byte) (index : EntryIndex) (s : State) :
    Host.Outcome State Fault Refusal :=
  .next (s.manage src tag clearCode (tableWrite (entryOf 4 index) fun r t => (t.writeRiser r .default, { code := .ok })))

/-! ### Supply record (R172) -/

/-- A value pushed when it differs from the one the owner holds (R172). -/
def pushIf (changed : Bool) (push : State → State) (s : State) : State := if changed then push s else s

/-- The supply record written, and the values the present mode uses pushed where they differ from those last pushed
(R172). -/
def State.writeSupply (s : State) (p : SupplyRecord) : State :=
  let s1 : State := { s with supply := { s.supply with record := p } }
  match s.supply.mode with
  | some .full => pushIf (p.fullFloor != s.ctl.floor) (fun t => t.pushFloor p.fullFloor) s1
  | some .reserve =>
    let s2 := pushIf (p.percent != s.ring.percent) (fun t => t.pushPercent p.percent) s1
    let s3 := pushIf (p.slots != s.arb.usable) (fun t => t.pushUsable p.slots) s2
    (((pushIf (p.floor != s.ctl.floor) (fun t => t.pushFloor p.floor) s3).pushPause p.pause)).settle []
  | some .depleted => s1
  | none => s1

/-- WRITE_ENTRY_SUPPLY (R172). -/
def execWriteEntrySupply (src : Link) (tag : Byte) (index : EntryIndex) (w : SupplyWrite) (s : State) :
    Host.Outcome State Fault Refusal :=
  .next (s.manage src tag writeCode (tableWrite (entryOf 1 index) fun _ t =>
    (t.writeSupply (SupplyWrite.record w).1, { code := (SupplyWrite.record w).2 })))

/-- CLEAR_ENTRY_SUPPLY (R172). -/
def execClearEntrySupply (src : Link) (tag : Byte) (index : EntryIndex) (s : State) :
    Host.Outcome State Fault Refusal :=
  .next (s.manage src tag clearCode (tableWrite (entryOf 1 index) fun _ t => (t.writeSupply .default, { code := .ok })))

end Sys2Proof.Machine
end

