-- ==== Sys2Proof/Machine/Startup.lean ====
section
/-! DEFINITION. The settings store (spec/11): SAVE and its phases, the cold start, the start-up sequence and the warm
restart. -/

namespace Sys2Proof.Machine

open Sys2Proof

/-! ### SAVE (R187, R188) -/

/-- The privacy flags of the directory, an unused entry's taken as clear. -/
def DirectoryUnit.privacyFlags (d : DirectoryUnit) : Vector Bool 250 :=
  Vector.ofFn fun i =>
    match d.entries[i] with
    | some a => a.hasPrivacy
    | none => false

/-- The snapshot a SAVE takes (R187). -/
def State.snapshot (s : State) : Snapshot :=
  { hasPrivacy := s.dir.privacyFlags, mask := s.mgmt.mask, deskOpen := s.desk.isOpen }

/-- The settings a save writes (R187): the tables, which no write can change while it runs, with the snapshot's privacy
flags, mask and desk open flag. -/
def State.captured (s : State) (x : Snapshot) : Settings :=
  { entries := updAll s.dir.entries fun i a => a.map fun b => { b with hasPrivacy := x.hasPrivacy[i] }
    handsets := s.dir.handsets
    classes := s.dir.classes
    profiles := s.dir.profiles
    doors := Vector.ofFn fun e => s.doors[e].entry
    risers := Vector.ofFn fun r => s.feeds[r].entry
    supply := s.supply.record
    mask := x.mask
    deskOpen := x.deskOpen }

/-- The settings store written. -/
def State.putStore (s : State) (x : Store) : State := { s with store := x }

/-- A SAVE taken by the settings store (R187): its mark is NOT VALID from now on (R188). -/
def startSave (s : State) : State × Answer :=
  if s.saving then (s, { code := .storeBusy })
  else
    (s.putStore { pages := none, valid := false, phase := .erasing, snapshot := some s.snapshot }, { code := .ok })

/-- SAVE (R187). -/
def execSave (src : Link) (tag : Byte) (s : State) : Host.Outcome State Fault Refusal :=
  .next (s.manage src tag 0x0F startSave)

/-- A save ends (R188): the phase is IDLE, the snapshot discarded, and the outcome told. -/
def State.endSave (s : State) (valid : Bool) : State :=
  (s.putStore { s.store with valid := valid, phase := .idle, snapshot := none }).offer
    (.store (if valid then .done else .failed))

/-- The number of pages of the store. -/
def pageCount : Nat := 16

/-- SAVE_ERASE_DONE (R188). -/
def execSaveEraseDone (s : State) : Host.Outcome State Fault Refusal :=
  match s.store.phase with
  | .erasing => .next (s.putStore { s.store with phase := .writing 0 })
  | _ => .next s

/-- The last page has been written and compared equal (R188). -/
def State.pagesDone (s : State) : State :=
  s.putStore { s.store with pages := s.store.snapshot.map s.captured, phase := .marking }

/-- SAVE_PAGE_WRITTEN (R188): a page that does not compare equal fails the save. -/
def execSavePageWritten (equal : Bool) (s : State) : Host.Outcome State Fault Refusal :=
  match s.store.phase with
  | .writing n =>
    if equal then
      if n + 1 < pageCount then .next (s.putStore { s.store with phase := .writing (n + 1) }) else .next s.pagesDone
    else .next (s.endSave false)
  | _ => .next s

/-- SAVE_MARK_WRITTEN (R188). -/
def execSaveMarkWritten (equal : Bool) (s : State) : Host.Outcome State Fault Refusal :=
  match s.store.phase with
  | .marking => .next (s.endSave equal)
  | _ => .next s

/-! ### Cold start (R190) -/

/-- Default settings (R190, step 1). -/
def Settings.default : Settings :=
  { entries := Vector.replicate 250 none
    handsets := Vector.replicate 4 (Vector.replicate 60 .default)
    classes := ClassParams.defaults
    profiles := Profile.defaults
    doors := Vector.replicate 6 .default
    risers := Vector.replicate 4 .default
    supply := .default
    mask := BitVec.allOnes 9
    deskOpen := false }

/-- What the pages load: the saved settings while the mark is VALID (R189). -/
def Store.loaded (x : Store) : Option Settings := if x.valid then x.pages else none

/-- A riser controller at a cold start (R134): enrolled nodes are PRESENT on an enabled riser and LOST on another. -/
def RiserControl.cold (handsets : Vector HandsetEntry 60) (enabled : Bool) : RiserControl :=
  { RiserControl.reset with
    presence := Vector.ofFn fun n => if handsets[n].enrolled then (if enabled then .present else .lost) else .absent }

/-- A door unit at a cold start (R156), with the first sample of its contact input. -/
def DoorUnit.cold (entry : DoorEntry) (high : Bool) : DoorUnit :=
  { entry := entry, run := none, grace := none, lastSample := entry.reads high, contact := entry.reads high,
    door := if entry.reads high then .openAuth else .shut,
    held := if entry.reads high then some (secondMs entry.heldLimit) else none, ignored := 0 }

/-- The management unit at a cold start, before any notice is offered (R186). -/
def Management.cold (mask : BitVec 9) : Management :=
  { windows := Vector.replicate 6 none,
    conditions :=
      { doorHeld := Vector.replicate 6 false, doorForced := Vector.replicate 6 false,
        feedHeld := Vector.replicate 4 false, supplyDepleted := false, storeInvalid := false, urgentUnanswered := false },
    notices := [], lost := false, mask := mask }

/-- The exchange with settings loaded, every block as its chapter gives for a cold start. -/
def State.coldWith (p : Settings) (store : Store) (contacts : Vector Bool 6) (pending : List Instr) : State :=
  { ctl := .reset
    dir := { entries := p.entries, handsets := p.handsets, classes := p.classes, profiles := p.profiles }
    arb := .reset
    ring := .reset
    desk := { DeskUnit.reset with isOpen := p.deskOpen }
    risers := Vector.ofFn fun r => .cold p.handsets[r] p.risers[r].enabled
    links := Vector.replicate 7 .reset
    doors := Vector.ofFn fun e => .cold p.doors[e] contacts[e]
    meas := .reset
    feeds := Vector.ofFn fun r => { Feed.reset with entry := p.risers[r] }
    supply := { Supply.reset with record := p.supply }
    mgmt := .cold p.mask
    store := store
    startup := some { next := 0, ms := 0 }
    pending := pending }

/-- The first steps of a cold start (R190): tables from the store when its mark is VALID, and defaults with
STORE-INVALID otherwise; a save under way is cut short (R189). -/
def State.coldStart (s : State) (contacts : Vector Bool 6) : State :=
  let store : Store := { s.store with phase := .idle, snapshot := none }
  match store.loaded with
  | some p => State.coldWith p store contacts s.pending
  | none =>
    ((State.coldWith Settings.default store contacts s.pending).offer (.store .invalidAtStart)).raise .storeInvalid

/-- COLD_START (R190). -/
def execColdStart (contacts : Vector Bool 6) (s : State) : Host.Outcome State Fault Refusal := .next (s.coldStart contacts)

/-! ### The start-up sequence (R191) -/

/-- The riser after another, none after riser D. -/
def nextRiser (r : Riser) : Option Riser := if h : r.val < 3 then some ⟨r.val + 1, by omega⟩ else none

/-- The risers from one on, in order. -/
def risersFrom (r : Riser) : List Riser := allRisers.filter fun q => decide (r ≤ q)

/-- The sequence passes a riser that it does not switch on: one that is not enabled takes hold cause ORDER in place of
START (R169). -/
def State.passRiser (s : State) (r : Riser) : State :=
  if s.feeds[r].state = .offHeld .start then s.modFeed r fun f => { f with state := .offHeld .order } else s

/-- Whether the sequence gives a riser its 200 ms: it is enabled and not ordered off. It waits in START, or has been
switched on before its turn, by a request or a write, and is left as it is, a short since then being as if it had not
happened (R191). DESIGN CHOICE: a riser switched on before its turn takes a full 200 ms from the moment the sequence
reaches it; the spec only says that it is left so (notes/assumptions/45.md). DESIGN CHOICE: one that was switched on
before its turn and ordered off again is passed over with no interval, as R191 says of an off taken in START
(notes/assumptions/49.md). -/
def State.takesTurn (s : State) (r : Riser) : Bool :=
  s.feeds[r].entry.enabled && s.feeds[r].state != .offHeld .order

/-- A riser's turn: one waiting in START is switched on, one switched on before is left as it is (R191). -/
def State.takeTurn (s : State) (r : Riser) : State :=
  if s.feeds[r].state = .offHeld .start then s.switchOn r 0 else s

/-- Risers passed over at once, up to the first that takes a turn. -/
def passOver : List Riser → State → List Riser × State
  | [], s => ([], s)
  | r :: rs, s => if s.takesTurn r then (r :: rs, s) else passOver rs (s.passRiser r)

/-- The interval between two switch-ons, in ms (R191). -/
def startupGapMs : Nat := 200

/-- The start-up sequence after a turn: 200 ms to the next riser that takes one, or its end with the RESTART (cold)
notice (R190, step 6). -/
def State.startupNext (s : State) (rest : List Riser) : State :=
  match passOver rest s with
  | (r :: _, s1) => { s1 with startup := some { next := r, ms := startupGapMs } }
  | ([], s1) => ({ s1 with startup := none } : State).offer (.restart true)

/-- The sequence's step at a riser (R191). -/
def State.startupStep (s : State) (r : Riser) : State :=
  match passOver (risersFrom r) s with
  | (q :: rest, s1) => (s1.takeTurn q).startupNext rest
  | ([], s1) => s1.startupNext []

/-- STARTUP_SWITCH_ON (R191): once the first supply mode is set, and until riser D has been dealt with. DESIGN CHOICE:
when the riser whose 200 ms run is disabled or ordered off meanwhile, and no riser that takes a turn follows it, the 200
ms are waited out before the sequence ends with RESTART (cold); the spec does not say (notes/assumptions/52.md). -/
def execStartupSwitchOn (s : State) : Host.Outcome State Fault Refusal :=
  match s.startup, s.supply.mode with
  | some x, some _ => .next ((s.startupStep x.next).settle [])
  | _, _ => .next s

/-! ### Warm restart (R192) -/

/-- A node's presence at a warm restart: an enrolled node is PRESENT on an ON riser and LOST on an OFF riser (R135). -/
def Presence.warm (feedOn : Bool) : Presence → Presence
  | .absent => .absent
  | .present => if feedOn then .present else .lost
  | .lost => if feedOn then .present else .lost

/-- A riser controller at a warm restart (R135). -/
def RiserControl.warm (u : RiserControl) (feedOn : Bool) : RiserControl :=
  let v : RiserControl :=
    { u with pointer := none, lastPoll := .extra, turn := .attention, control := [], controlTry := 0, indications := [],
             indicationTry := 0, attention := [], attentionPos := none, survey := none,
             presence := updAll u.presence fun _ p => p.warm feedOn }
  if feedOn then { v with missed := Vector.replicate 60 0, use := .idle, useMs := 0, allClearMs := useLength } else v

/-- A door unit at a warm restart (R156). -/
def DoorUnit.warm (d : DoorUnit) : DoorUnit :=
  { d with run := none, grace := none, door := if d.contact then .openAuth else .shut,
           held := if d.contact then some (secondMs d.entry.heldLimit) else none }

/-- A link unit at a warm restart (R145): waiting SIGNAL frames are discarded. -/
def LinkUnit.warm (u : LinkUnit) : LinkUnit := { u with sendList := u.sendList.filter fun f => !f.isSignal }

/-- Every block takes the warm restart on its own state (R192). DESIGN CHOICE: a start-up sequence still under way runs
on, so RESTART (cold) may be offered after RESTART (warm); the spec is silent (notes/assumptions/46.md). -/
def State.warmBlocks (s : State) : State :=
  { s with
    ctl := { s.ctl with calls := Vector.replicate 24 none, lines := Vector.replicate 4 (Vector.replicate 60 .idle) }
    arb := { s.arb with risers := Vector.replicate 4 .empty, cross := [], due := [] }
    ring := { s.ring with sounding := Vector.replicate 4 [] }
    desk := { s.desk with lines := Vector.replicate 2 .free, queue := [] }
    risers := updAll s.risers fun r u => u.warm (s.feedOn r)
    links := updAll s.links fun _ u => u.warm
    doors := updAll s.doors fun _ d => d.warm
    mgmt := { s.mgmt with windows := Vector.replicate 6 none } }

/-- A warm restart with its RESTART (warm) notice (R192). -/
def State.warmRestart (s : State) : State := s.warmBlocks.offer (.restart false)

/-- RESTART (R192): answered OK first, and the reply is kept through the restart (R178). -/
def execRestart (src : Link) (tag : Byte) (s : State) : Host.Outcome State Fault Refusal :=
  let s1 := s.frameIn src
  if s1.sourceAllowed src then .next (s1.reply src tag 0x10 { code := .ok }).warmRestart
  else .next (s1.deny src tag)

end Sys2Proof.Machine
end

