-- ==== Sys2Proof/Machine/Clock.lean ====
section
/-! DEFINITION. The passing of one millisecond (notes/assumptions/1.md): every timer and elapsed count moves, idle links
begin to send, and the events that fall due join the queue of waiting commands in a fixed order. -/

namespace Sys2Proof.Machine

open Sys2Proof

/-! ### Timers move -/

/-- A running timer a millisecond later. -/
def fall (t : Option Nat) : Option Nat := t.map fun n => n - 1

/-- An elapsed count a millisecond later. -/
def rise (t : Option Nat) : Option Nat := t.map fun n => n + 1

/-- A call a millisecond later. -/
def Call.age (x : Call) : Call :=
  { x with
    waitMs := if x.state = .waiting then x.waitMs + 1 else x.waitMs
    offerMs := rise x.offerMs
    talkMs := if x.connected then rise x.talkMs else x.talkMs
    segment := x.segment.map fun p => (p.1, p.2 - 1) }

/-- A riser controller a millisecond later. -/
def RiserControl.age (u : RiserControl) : RiserControl := { u with useMs := u.useMs - 1, allClearMs := u.allClearMs - 1 }

/-- A link unit a millisecond later; one that sends nothing begins its next frame (R140). -/
def LinkUnit.age (u : LinkUnit) : LinkUnit :=
  let v := { u with liveness := fall u.liveness, statusMs := u.statusMs - 1, gap := fall u.gap }
  if v.sending.isNone then v.sendNext else v

/-- A door unit a millisecond later. -/
def DoorUnit.age (d : DoorUnit) : DoorUnit :=
  { d with run := d.run.map fun r => { r with ms := r.ms - 1 }, grace := fall d.grace, held := fall d.held }

/-- A feed monitor a millisecond later. -/
def Feed.age (f : Feed) : Feed := { f with settle := fall f.settle, retry := fall f.retry, stable := fall f.stable }

/-- Every timer of the exchange a millisecond later. -/
def State.age (s : State) : State :=
  { s with
    ctl := { s.ctl with calls := updAll s.ctl.calls fun _ x => x.map Call.age }
    risers := updAll s.risers fun _ u => u.age
    links := updAll s.links fun _ u => u.age
    doors := updAll s.doors fun _ d => d.age
    feeds := updAll s.feeds fun _ f => f.age
    mgmt := { s.mgmt with windows := updAll s.mgmt.windows fun _ w => fall w }
    startup := s.startup.map fun x => { x with ms := x.ms - 1 } }

/-! ### Events that fall due -/

/-- A command when a condition holds. -/
def when (b : Bool) (i : Instr) : List Instr := if b then [i] else []

/-- Whether a timer of a state runs out with this millisecond. -/
def runsOut (t : Option Nat) : Bool := t == some 1

/-- The first supply mode and the start-up sequence (R173, R191). -/
def State.startupEvents (s : State) : List Instr :=
  when (s.supply.mode.isNone && s.supply.mains.isSome && !s.meas.battery.seed) .firstSupplyMode ++
  when (s.supply.mode.isSome && match s.startup with
    | some x => decide (x.ms ≤ 1)
    | none => false) .startupSwitchOn

/-- A link's frame gap, liveness timer and STATUS period (R136, R138, R141). -/
def State.linkEvents (s : State) (l : Link) : List Instr :=
  when (runsOut (s.link l).gap) (.frameAbandoned l) ++
  when (runsOut (s.link l).liveness) (.livenessTimerExpiry l) ++ when ((s.link l).statusMs == 1) (.statusDue l)

/-- A riser's poll pause, or the end of a reply window in which nothing arrived (R111, R119). -/
def State.busEvents (s : State) (r : Riser) : List Instr :=
  if s.risers[r].useMs = 1 then
    match s.risers[r].use with
    | .silent => []
    | .idle => []
    | .pause => [.pollPauseEnd r]
    | .regularPoll _ => [.missedPoll r .noReply]
    | .attentionPoll _ => [.missedPoll r .noReply]
    | .probe _ => [.surveyProbe r (.failed .noReply)]
    | .control => [.commandNoAck r .noReply]
    | .indication => [.commandNoAck r .noReply]
  else []

/-- A waiting call's queue limit (R59, R99). -/
def Call.waitEvents (x : Call) (c : CallId) : List Instr :=
  match x.waitKind with
  | some (.riser _) => when (x.waitMs + 1 == secondMs x.params.queue) (.queueLimit c)
  | some .desk => when (x.waitMs + 1 == secondMs x.params.queue) (.deskQueueLimit c)
  | none => []

/-- A ringing call's cadence segment (R76). -/
def Call.cadenceEvents (x : Call) (c : CallId) : List Instr :=
  when ((x.segment.map (·.2)) == some 1) (.cadenceSegmentEnd c)

/-- A call's talk warning and talk limit (R21). -/
def Call.talkEvents (x : Call) (c : CallId) : List Instr :=
  when (x.connected && decide (20 ≤ x.params.talk) && rise x.talkMs == some (secondMs (x.params.talk - 10)))
    (.talkWarning c) ++
  when (x.connected && rise x.talkMs == some (secondMs x.params.talk)) (.talkLimit c)

/-- What falls due for the live calls, in record order. -/
def State.eachCall (s : State) (events : Call → CallId → List Instr) : List Instr :=
  allCalls.flatMap fun c =>
    match s.call? c with
    | some x => events x c
    | none => []

/-- What falls due for the calls: the limits of waiting calls, cadence segments, then talk. They come before every event
that could start one of these times again (a granted slot, a forward after a lost node), so a time that has run out is
never taken for one that has just begun (R59, R76). -/
def State.callEvents (s : State) : List Instr :=
  s.eachCall Call.waitEvents ++ s.eachCall Call.cadenceEvents ++ s.eachCall Call.talkEvents

/-- A door's grace timer, run timer and held timer (R147, R152). The grace comes first: a DRIVE that ends in the same
millisecond starts it again. -/
def State.doorEvents (s : State) (e : Entrance) : List Instr :=
  when (runsOut s.doors[e].grace) (.graceExpiry e) ++
  (match s.doors[e].run with
   | some r => when (r.ms == 1) (if r.drive then .driveEnd e else .delayEnd e)
   | none => []) ++
  when (runsOut s.doors[e].held) (.heldTimerExpiry e)

/-- A feed's settle, retry and stable timers (R161, R164). -/
def State.feedEvents (s : State) (r : Riser) : List Instr :=
  when (runsOut s.feeds[r].settle) (.settleEnd r) ++ when (runsOut s.feeds[r].retry) (.retryExpiry r) ++
  when (runsOut s.feeds[r].stable) (.stableExpiry r)

/-- A notice can be taken (R183). -/
def State.noticeEvents (s : State) : List Instr :=
  when ((s.link .desk).up && (s.link .desk).sendList.isEmpty && !s.mgmt.notices.isEmpty) .noticeTaken

/-- Everything that falls due with this millisecond, in the order the model takes it (notes/assumptions/1.md). -/
def State.dueEvents (s : State) : List Instr :=
  s.callEvents ++ s.startupEvents ++ allRisers.flatMap s.feedEvents ++ allLinks.flatMap s.linkEvents ++
  (allEntrances.flatMap fun e => when (runsOut s.mgmt.windows[e]) (.serviceWindowExpiry e)) ++
  allEntrances.flatMap s.doorEvents ++ allRisers.flatMap s.busEvents ++ s.noticeEvents

/-- One millisecond passes: what falls due waits behind nothing, since the queue is empty when the clock moves. -/
def State.tick (s : State) : State :=
  let s1 := s.age.kickAll
  { s1 with pending := s1.pending ++ s.dueEvents }

end Sys2Proof.Machine
end

