-- ==== Sys2Proof/Machine/Dispatch.lean ====
section
/-! DEFINITION. The meaning of every command, one arm for each constructor of `Instr`. -/

namespace Sys2Proof.Machine

open Sys2Proof

-- the effect of a command on everything but the queue of waiting commands
def exec (i : Instr) (s : State) : Host.Outcome State Fault Refusal :=
  match i with
  | .coldStart contacts => Sys2Proof.Machine.execColdStart contacts s
  | .firstSupplyMode => Sys2Proof.Machine.execFirstSupplyMode s
  | .startupSwitchOn => Sys2Proof.Machine.execStartupSwitchOn s
  | .restart src tag => Sys2Proof.Machine.execRestart src tag s
  | .frameDiscarded l => Sys2Proof.Machine.execFrameDiscarded l s
  | .frameAbandoned l => Sys2Proof.Machine.execFrameAbandoned l s
  | .statusReceived l => Sys2Proof.Machine.execStatusReceived l s
  | .signalDisregarded l => Sys2Proof.Machine.execSignalDisregarded l s
  | .livenessTimerExpiry l => Sys2Proof.Machine.execLivenessTimerExpiry l s
  | .statusDue l => Sys2Proof.Machine.execStatusDue l s
  | .frameSent l => Sys2Proof.Machine.execFrameSent l s
  | .noticeTaken => Sys2Proof.Machine.execNoticeTaken s
  | .call e code => Sys2Proof.Machine.execCall e code s
  | .callDesk e => Sys2Proof.Machine.execCallDesk e s
  | .cancel e => Sys2Proof.Machine.execCancel e s
  | .deskCall code => Sys2Proof.Machine.execDeskCall code s
  | .deskAnswer rec => Sys2Proof.Machine.execDeskAnswer rec s
  | .deskHold line => Sys2Proof.Machine.execDeskHold line s
  | .deskResume line => Sys2Proof.Machine.execDeskResume line s
  | .deskEnd line => Sys2Proof.Machine.execDeskEnd line s
  | .deskRelease entrance => Sys2Proof.Machine.execDeskRelease entrance s
  | .deskOpen => Sys2Proof.Machine.execDeskOpen s
  | .deskClose => Sys2Proof.Machine.execDeskClose s
  | .manageEmptyBody l => Sys2Proof.Machine.execManageEmptyBody l s
  | .manageUnknownRequest src tag code badTable => Sys2Proof.Machine.execManageUnknownRequest src tag code badTable s
  | .readEntry src tag table index => Sys2Proof.Machine.execReadEntry src tag table index s
  | .writeEntryDirectory src tag index w => Sys2Proof.Machine.execWriteEntryDirectory src tag index w s
  | .clearEntryDirectory src tag index => Sys2Proof.Machine.execClearEntryDirectory src tag index s
  | .writeEntryHandset src tag index w => Sys2Proof.Machine.execWriteEntryHandset src tag index w s
  | .clearEntryHandset src tag index => Sys2Proof.Machine.execClearEntryHandset src tag index s
  | .writeEntryClass src tag index w => Sys2Proof.Machine.execWriteEntryClass src tag index w s
  | .clearEntryClass src tag index => Sys2Proof.Machine.execClearEntryClass src tag index s
  | .writeEntryProfile src tag index w => Sys2Proof.Machine.execWriteEntryProfile src tag index w s
  | .clearEntryProfile src tag index => Sys2Proof.Machine.execClearEntryProfile src tag index s
  | .writeEntryDoor src tag index w => Sys2Proof.Machine.execWriteEntryDoor src tag index w s
  | .clearEntryDoor src tag index => Sys2Proof.Machine.execClearEntryDoor src tag index s
  | .writeEntryRiser src tag index w => Sys2Proof.Machine.execWriteEntryRiser src tag index w s
  | .clearEntryRiser src tag index => Sys2Proof.Machine.execClearEntryRiser src tag index s
  | .writeEntrySupply src tag index w => Sys2Proof.Machine.execWriteEntrySupply src tag index w s
  | .clearEntrySupply src tag index => Sys2Proof.Machine.execClearEntrySupply src tag index s
  | .queryCalls src tag start => Sys2Proof.Machine.execQueryCalls src tag start s
  | .queryStatus src tag section_ which => Sys2Proof.Machine.execQueryStatus src tag section_ which s
  | .clearCondition src tag cond inst => Sys2Proof.Machine.execClearCondition src tag cond inst s
  | .setMask src tag mask => Sys2Proof.Machine.execSetMask src tag mask s
  | .doorRelease src tag entrance => Sys2Proof.Machine.execDoorRelease src tag entrance s
  | .callClear src tag rec => Sys2Proof.Machine.execCallClear src tag rec s
  | .riserFeed src tag riser onOff => Sys2Proof.Machine.execRiserFeed src tag riser onOff s
  | .riserSurvey src tag riser => Sys2Proof.Machine.execRiserSurvey src tag riser s
  | .serviceWindow src tag entrance minutes => Sys2Proof.Machine.execServiceWindow src tag entrance minutes s
  | .manageDeskOpen src tag => Sys2Proof.Machine.execManageDeskOpen src tag s
  | .manageDeskClose src tag => Sys2Proof.Machine.execManageDeskClose src tag s
  | .save src tag => Sys2Proof.Machine.execSave src tag s
  | .saveEraseDone => Sys2Proof.Machine.execSaveEraseDone s
  | .savePageWritten equal => Sys2Proof.Machine.execSavePageWritten equal s
  | .saveMarkWritten equal => Sys2Proof.Machine.execSaveMarkWritten equal s
  | .serviceWindowExpiry e => Sys2Proof.Machine.execServiceWindowExpiry e s
  | .pollPauseEnd r => Sys2Proof.Machine.execPollPauseEnd r s
  | .noneReply r n => Sys2Proof.Machine.execNoneReply r n s
  | .hookOff r n => Sys2Proof.Machine.execHookOff r n s
  | .hookOn r n => Sys2Proof.Machine.execHookOn r n s
  | .keyDoor r n => Sys2Proof.Machine.execKeyDoor r n s
  | .keyDesk r n => Sys2Proof.Machine.execKeyDesk r n s
  | .dial r n code => Sys2Proof.Machine.execDial r n code s
  | .keyUrgent r n => Sys2Proof.Machine.execKeyUrgent r n s
  | .keyPrivacy r n => Sys2Proof.Machine.execKeyPrivacy r n s
  | .missedPoll r f => Sys2Proof.Machine.execMissedPoll r f s
  | .ack r n code => Sys2Proof.Machine.execAck r n code s
  | .commandNoAck r f => Sys2Proof.Machine.execCommandNoAck r f s
  | .surveyProbe r p => Sys2Proof.Machine.execSurveyProbe r p s
  | .cadenceSegmentEnd c => Sys2Proof.Machine.execCadenceSegmentEnd c s
  | .talkWarning c => Sys2Proof.Machine.execTalkWarning c s
  | .talkLimit c => Sys2Proof.Machine.execTalkLimit c s
  | .queueLimit c => Sys2Proof.Machine.execQueueLimit c s
  | .deskQueueLimit c => Sys2Proof.Machine.execDeskQueueLimit c s
  | .delayEnd e => Sys2Proof.Machine.execDelayEnd e s
  | .driveEnd e => Sys2Proof.Machine.execDriveEnd e s
  | .graceExpiry e => Sys2Proof.Machine.execGraceExpiry e s
  | .doorOpening e => Sys2Proof.Machine.execDoorOpening e s
  | .doorClosing e => Sys2Proof.Machine.execDoorClosing e s
  | .heldTimerExpiry e => Sys2Proof.Machine.execHeldTimerExpiry e s
  | .feedVoltageConversion r c => Sys2Proof.Machine.execFeedVoltageConversion r c s
  | .feedCurrentConversion r c => Sys2Proof.Machine.execFeedCurrentConversion r c s
  | .batteryConversion c => Sys2Proof.Machine.execBatteryConversion c s
  | .debouncedMainsChange present => Sys2Proof.Machine.execDebouncedMainsChange present s
  | .settleEnd r => Sys2Proof.Machine.execSettleEnd r s
  | .retryExpiry r => Sys2Proof.Machine.execRetryExpiry r s
  | .stableExpiry r => Sys2Proof.Machine.execStableExpiry r s
  | .doorContactSample e high => Sys2Proof.Machine.execDoorContactSample e high s
  | .mainsSenseSample present => Sys2Proof.Machine.execMainsSenseSample present s

end Sys2Proof.Machine
end

