-- ==== Sys2Proof/Machine/Step.lean ====
section
/-! DEFINITION. One step of the exchange: the command at the front of the queue, or one millisecond when none waits. -/

namespace Sys2Proof.Machine

open Sys2Proof

/-- One step: the command at the front of the queue is taken on the queue's rest; with no command waiting, one
millisecond passes (notes/assumptions/1.md). -/
def step (s : State) : Host.Outcome State Fault Refusal :=
  match s.pending with
  | i :: rest => exec i { s with pending := rest }
  | [] => .next s.tick

/-- `s` with the command that a word of the opcode table spells at the front of its queue; `s` itself when the word
spells none, as every word does (the table gives no row any bits). -/
def State.withFetchWord (s : State) (nbits w : Nat) : State :=
  match decodeTableWord nbits w with
  | some i => { s with pending := i :: s.pending }
  | none => s

end Sys2Proof.Machine
end

