-- ==== Sys2Proof/Safety.lean ====
section
/-! DEFINITION. What counts as a safe state of the exchange, and the terms the statements use: the invariants, a
command's completion, and what the handling of calls leaves alone. -/

namespace Sys2Proof.Machine

open Sys2Proof

/-! ### Invariants -/

/-- On every riser the admitted loads of the sounding handsets do not exceed the effective ring budget (R83). -/
def RingSafe (s : State) : Prop := ∀ r : Riser, s.soundSum r ≤ s.beff r

/-- No queue is longer than the spec lets it be: wait lists (R55), the desk queue (R55), the notice queue (R183), the
indication queues (R126) and the send lists (R140). -/
structure QueuesBounded (s : State) : Prop where
  wait : ∀ r : Riser, (s.arb.risers[r]).wait.length ≤ 8
  desk : s.desk.queue.length ≤ 8
  notices : s.mgmt.notices.length ≤ 16
  indications : ∀ r : Riser, (s.risers[r]).indications.length ≤ 24
  send : ∀ l : Link, (s.link l).sendList.length ≤ 16

/-- Timers run exactly in the states the spec gives them, and at most one console line is ACTIVE: the liveness timer
while its link is UP (R138), the held timer while the door is OPEN-AUTH (R151 to R153), the retry timer in OFF-RETRY and
the settle and stable timers in an ON state alone (R161, R163, R164); lines as R96. -/
structure Supervised (s : State) : Prop where
  liveness : ∀ l : Link, (s.link l).liveness.isSome = (s.link l).up
  held : ∀ e : Entrance, (s.doors[e]).held.isSome = decide ((s.doors[e]).door = .openAuth)
  retry : ∀ r : Riser, (s.feeds[r]).retry.isSome = decide ((s.feeds[r]).state = .offRetry)
  settle : ∀ r : Riser, (s.feeds[r]).settle.isSome = true → s.feedOn r = true
  stable : ∀ r : Riser, (s.feeds[r]).stable.isSome = true → s.feedOn r = true
  lines : (s.desk.lines[(0 : LineNo)].isActive && s.desk.lines[(1 : LineNo)].isActive) = false

/-- Two used directory entries that R36 lets stand beside each other: other codes, and no node listed in both. -/
def Apartment.apart (a b : Apartment) : Prop :=
  a.code ≠ b.code ∧ (a.riser = b.riser → ∀ n : Node, n ∈ a.nodes → n ∉ b.nodes)

/-- The used entries of a directory are pairwise apart (R36). -/
def entriesApart (es : Vector (Option Apartment) 250) : Prop :=
  ∀ (i j : DirIndex) (a b : Apartment), i ≠ j → es[i] = some a → es[j] = some b → a.apart b

/-- The directory keeps R36, and so do the settings the store holds. -/
def DirectoryApart (s : State) : Prop :=
  entriesApart s.dir.entries ∧ ∀ p : Settings, s.store.pages = some p → entriesApart p.entries

/-- Every used entry of a directory lists at most four nodes (R35). -/
def entriesListFew (es : Vector (Option Apartment) 250) : Prop :=
  ∀ (i : DirIndex) (a : Apartment), es[i] = some a → a.nodes.length ≤ 4

/-- The directory keeps R35's bound on nodes, and so do the settings the store holds. -/
def NodesFew (s : State) : Prop :=
  entriesListFew s.dir.entries ∧ ∀ p : Settings, s.store.pages = some p → entriesListFew p.entries

/-- A console line that a live call not in ENDING names, as its origin or as the line that took it, holds that call
(R96, R104). -/
def LinesHold (s : State) : Prop :=
  ∀ (c : CallId) (x : Call) (l : LineNo), s.call? c = some x → x.state ≠ .ending → x.consoleLine = some l →
    (s.desk.lines[l]).call? = some c

/-- A live call not in ENDING that comes from an entrance has that entrance's link UP, and one that names a console line
the desk link (R95, R139). -/
def OriginsUp (s : State) : Prop :=
  ∀ (c : CallId) (x : Call), s.call? c = some x → x.state ≠ .ending →
    (∀ e : Entrance, x.origin = .entrance e → (s.link (.entrance e)).up = true) ∧
    (∀ l : LineNo, x.consoleLine = some l → (s.link .desk).up = true)

/-- The call table in order: no grant event is due (R60); the wait lists and the desk queue hold WAITING calls of their
own kind of wait, the queue's with target DESK (R16, R17, R57); only a RINGING call has a ring set (R19, R20, R27); a
desk claim waits in its origin's riser with target DESK (R54, R102); an entrance or a handset originates at most one
live call (R12); lines and links as `LinesHold` and `OriginsUp` say. -/
structure CallsInOrder (s : State) : Prop where
  due : s.arb.due = []
  wait : ∀ (r : Riser) (c : CallId), c ∈ (s.arb.risers[r]).wait →
    ∃ x, s.call? c = some x ∧ x.state = .waiting ∧ x.waitKind = some (.riser r)
  queue : ∀ c ∈ s.desk.queue, ∃ x, s.call? c = some x ∧ x.state = .waiting ∧ x.waitKind = some .desk ∧ x.target = .desk
  ringing : ∀ (c : CallId) (x : Call), s.call? c = some x → x.ringSet ≠ [] → x.state = .ringing
  claim : ∀ (c : CallId) (x : Call), s.call? c = some x → x.claim = true → x.state = .waiting ∧ x.target = .desk ∧
    ∃ h : Handset, x.origin = .handset h ∧ x.waitKind = some (.riser h.riser)
  origin : ∀ (c d : CallId) (x y : Call), s.call? c = some x → s.call? d = some y → x.origin = y.origin →
    (∀ l : LineNo, x.origin ≠ .line l) → c = d
  lines : LinesHold s
  up : OriginsUp s

/-- A call holds at most two slots, each of another riser (spec/01, 1.1). -/
def Call.SlotsApart (x : Call) : Prop := x.slots.length ≤ 2 ∧ (x.slots.map Prod.fst).Nodup

/-- The slots of the calls in order: a live call holds at most two, each of another riser (spec/01, 1.1), and a call in
a wait list or in the desk queue holds none (spec/01, 1.2). -/
structure SlotsInOrder (s : State) : Prop where
  apart : ∀ (c : CallId) (x : Call), s.call? c = some x → x.SlotsApart
  wait : ∀ (r : Riser) (c : CallId) (x : Call), c ∈ (s.arb.risers[r]).wait → s.call? c = some x → x.slots = []
  queue : ∀ (c : CallId) (x : Call), c ∈ s.desk.queue → s.call? c = some x → x.slots = []

/-- The handsets that have a role in a call: its origin, its answering handset and the members of its ring set. -/
def Call.handsets (x : Call) : List Handset :=
  (match x.origin with
   | .handset h => [h]
   | _ => []) ++ x.answering.toList ++ x.ringSet.map Member.handset

/-- Every handset has a role in at most one live call out of ENDING, and its line state is that role's (R3): RINGING in
a ring set, CONNECTED as a party in TALK or HELD, IDLE or OFFHOOK as the origin of a call that waits or rings, which no
handset has answered. A call in TALK or HELD, and a desk claim, has been answered: its latency is captured (R20, R100,
R102). -/
structure RolesInOrder (s : State) : Prop where
  one : ∀ (c d : CallId) (x y : Call) (h : Handset), s.call? c = some x → s.call? d = some y → x.state ≠ .ending →
    y.state ≠ .ending → h ∈ x.handsets → h ∈ y.handsets → c = d
  member : ∀ (c : CallId) (x : Call), s.call? c = some x → ∀ m ∈ x.ringSet, s.lineState m.handset = .ringing
  party : ∀ (c : CallId) (x : Call) (h : Handset), s.call? c = some x → x.connected = true →
    x.answering = some h ∨ x.origin = .handset h → s.lineState h = .connected
  origin : ∀ (c : CallId) (x : Call) (h : Handset), s.call? c = some x → x.state = .waiting ∨ x.state = .ringing →
    x.origin = .handset h → s.lineState h = .idle ∨ s.lineState h = .offhook
  fresh : ∀ (c : CallId) (x : Call), s.call? c = some x → x.state = .waiting ∨ x.state = .ringing → x.answering = none
  answered : ∀ (c : CallId) (x : Call), s.call? c = some x → x.connected = true ∨ x.claim = true → x.answered = true

/-- The states the exchange reaches from reset, whatever commands come, in whatever order and at whatever time, and
whatever bytes its links receive. -/
inductive Reached : State → Prop where
  | reset : Reached State.reset
  | commands (s : State) (cs : List Instr) : Reached s → Reached { s with pending := cs }
  | byte (s : State) (l : Link) (b : Byte) : Reached s → Reached (s.byteIn l b)
  | step (s t : State) : Reached s → step s = .next t → Reached t

/-! ### Completion -/

/-- The command completes: `exec` answers a next state, of which `P` holds. -/
def Completes (i : Instr) (s : State) (P : State → Prop) : Prop := ∃ t : State, exec i s = .next t ∧ P t

/-- What a call keeps from the moment its record is taken until it completes: its class, latched parameters, origin
and arrival stamp (R11, R13, R43). Its door-released flag is set by door releases alone (R7, R108). -/
structure SameCall (x y : Call) : Prop where
  cls : y.cls = x.cls
  params : y.params = x.params
  origin : y.origin = x.origin
  stamp : y.stamp = x.stamp
  doorReleased : y.doorReleased = x.doorReleased

/-- What the handling of calls, waits, ringing, console lines and riser queues leaves alone: every table, the door
units, measurement, feeds, supply, store, start-up sequence and queue; the stamp counter and floor; the usable slot
count and ring percent; the desk open flag; windows and mask; the presence, counters, pause and survey of each riser
controller; and each link's state, timers, sequence and error counter, with what waits on a DOWN link. It takes no
record, a live call stays the call it is until its record is FREE, the notices already waiting stay where they are,
and of the conditions it can raise URGENT-UNANSWERED alone. -/
structure Steady (s t : State) : Prop where
  dir : t.dir = s.dir
  doors : t.doors = s.doors
  meas : t.meas = s.meas
  feeds : t.feeds = s.feeds
  supply : t.supply = s.supply
  store : t.store = s.store
  startup : t.startup = s.startup
  pending : t.pending = s.pending
  stamp : t.ctl.stamp = s.ctl.stamp
  floor : t.ctl.floor = s.ctl.floor
  usable : t.arb.usable = s.arb.usable
  percent : t.ring.percent = s.ring.percent
  isOpen : t.desk.isOpen = s.desk.isOpen
  windows : t.mgmt.windows = s.mgmt.windows
  mask : t.mgmt.mask = s.mgmt.mask
  presence : ∀ r : Riser, (t.risers[r]).presence = (s.risers[r]).presence
  missed : ∀ r : Riser, (t.risers[r]).missed = (s.risers[r]).missed
  pause : ∀ r : Riser, (t.risers[r]).pause = (s.risers[r]).pause
  parityErrors : ∀ r : Riser, (t.risers[r]).parityErrors = (s.risers[r]).parityErrors
  wordErrors : ∀ r : Riser, (t.risers[r]).wordErrors = (s.risers[r]).wordErrors
  survey : ∀ r : Riser, (t.risers[r]).survey.map Survey.replied = (s.risers[r]).survey.map Survey.replied
  up : ∀ l : Link, (t.link l).up = (s.link l).up
  liveness : ∀ l : Link, (t.link l).liveness = (s.link l).liveness
  received : ∀ l : Link, (t.link l).received = (s.link l).received
  gap : ∀ l : Link, (t.link l).gap = (s.link l).gap
  sending : ∀ l : Link, (t.link l).sending = (s.link l).sending
  statusMs : ∀ l : Link, (t.link l).statusMs = (s.link l).statusMs
  sequence : ∀ l : Link, (t.link l).sequence = (s.link l).sequence
  frameErrors : ∀ l : Link, (t.link l).frameErrors = (s.link l).frameErrors
  down : ∀ l : Link, (s.link l).up = false → (t.link l).sendList = (s.link l).sendList
  calls : ∀ (c : CallId) (y : Call), t.call? c = some y → ∃ x, s.call? c = some x ∧ SameCall x y
  notices : s.mgmt.notices <+: t.mgmt.notices
  conditions : ∀ k : Condition, k ≠ .urgentUnanswered → t.mgmt.conditions.latched k = s.mgmt.conditions.latched k

/-- From `s` to `t` nothing differs but what waits in the riser queues and the use of the buses: the call table, line
states, slots, wait lists, crosspoint, sounding sets, console, links, notices and conditions are as they were, and so is
all that `Steady` names. -/
structure Undisturbed (s t : State) : Prop where
  steady : Steady s t
  ctl : t.ctl = s.ctl
  arb : t.arb = s.arb
  ring : t.ring = s.ring
  desk : t.desk = s.desk
  links : t.links = s.links
  mgmt : t.mgmt = s.mgmt

/-! ### What falls due -/

/-- What falls due with the millisecond that passes in `s` (notes/assumptions/1.md): the event of each timer with one
millisecond left and of each elapsed time one millisecond short of its limit, the steps of the start-up sequence, and a
notice that can be taken. No other command falls due. -/
def FallsDue (s : State) : Instr → Prop
  | .queueLimit c => ∃ (x : Call) (r : Riser), s.call? c = some x ∧ x.waitKind = some (.riser r) ∧
      x.waitMs + 1 = 1000 * x.params.queue
  | .deskQueueLimit c => ∃ x : Call, s.call? c = some x ∧ x.waitKind = some .desk ∧ x.waitMs + 1 = 1000 * x.params.queue
  | .cadenceSegmentEnd c => ∃ (x : Call) (g : Segment), s.call? c = some x ∧ x.segment = some (g, 1)
  | .talkWarning c => ∃ (x : Call) (n : Nat), s.call? c = some x ∧ (x.state = .talk ∨ x.state = .held) ∧
      20 ≤ x.params.talk ∧ x.talkMs = some n ∧ n + 1 = 1000 * (x.params.talk - 10)
  | .talkLimit c => ∃ (x : Call) (n : Nat), s.call? c = some x ∧ (x.state = .talk ∨ x.state = .held) ∧
      x.talkMs = some n ∧ n + 1 = 1000 * x.params.talk
  | .firstSupplyMode => s.supply.mode = none ∧ s.supply.mains ≠ none ∧ s.meas.battery.seed = false
  | .startupSwitchOn => s.supply.mode ≠ none ∧ ∃ x, s.startup = some x ∧ x.ms ≤ 1
  | .settleEnd r => (s.feeds[r]).settle = some 1
  | .retryExpiry r => (s.feeds[r]).retry = some 1
  | .stableExpiry r => (s.feeds[r]).stable = some 1
  | .frameAbandoned l => (s.link l).gap = some 1
  | .livenessTimerExpiry l => (s.link l).liveness = some 1
  | .statusDue l => (s.link l).statusMs = 1
  | .serviceWindowExpiry e => s.mgmt.windows[e] = some 1
  | .graceExpiry e => (s.doors[e]).grace = some 1
  | .driveEnd e => ∃ d, (s.doors[e]).run = some d ∧ d.drive = true ∧ d.ms = 1
  | .delayEnd e => ∃ d, (s.doors[e]).run = some d ∧ d.drive = false ∧ d.ms = 1
  | .heldTimerExpiry e => (s.doors[e]).held = some 1
  | .pollPauseEnd r => (s.risers[r]).use = .pause ∧ (s.risers[r]).useMs = 1
  | .missedPoll r f => f = .noReply ∧ (s.risers[r]).useMs = 1 ∧
      ∃ n : Node, (s.risers[r]).use = .regularPoll n ∨ (s.risers[r]).use = .attentionPoll n
  | .surveyProbe r p => p = .failed .noReply ∧ (s.risers[r]).useMs = 1 ∧ ∃ n : Node, (s.risers[r]).use = .probe n
  | .commandNoAck r f => f = .noReply ∧ (s.risers[r]).useMs = 1 ∧
      ((s.risers[r]).use = .control ∨ (s.risers[r]).use = .indication)
  | .noticeTaken => (s.link .desk).up = true ∧ (s.link .desk).sendList = [] ∧ s.mgmt.notices ≠ []
  | _ => False

/-! ### The end of a call -/

/-- No call waits for a talk slot. -/
def NoWaiters (s : State) : Prop := ∀ r : Riser, (s.arb.risers[r]).wait = []

/-- From `s`, with the live call `c` not yet in ENDING, to `t`, where it has been ended with a cause (R27, R29, R30): a
call without a handset party completes at once, its record FREE and a CALL-END notice offered; while no call waits for a
slot, a call that has not completed is in ENDING with that cause. -/
structure Ends (c : CallId) (cause : Cause) (s t : State) : Prop where
  steady : Steady s t
  free : ∀ x, s.call? c = some x → x.parties = [] → t.call? c = none
  notice : ∀ x, s.call? c = some x → x.parties = [] → s.mgmt.mask.getLsbD 0 = true → s.mgmt.notices.length ≤ 14 →
    ∃ k : CallEnd, Notice.callEnd k ∈ t.mgmt.notices ∧ k.record = c ∧ k.cause = cause ∧ k.cls = x.cls ∧
      k.origin = x.origin ∧ k.latency = x.latency ∧ k.doorReleased = x.doorReleased
  ending : NoWaiters s → ∀ y, t.call? c = some y → y.state = .ending ∧ y.cause = some cause

/-- From `s`, where `c` is a live call, to `t`, where it has been ended: each CONNECTED handset party that can be
reached, and is in no ring set of the call, has been sent CLEAR, and the record is not free while one of them is
unsettled (R27, R29). -/
def Clears (c : CallId) (s t : State) : Prop :=
  ∀ x : Call, s.call? c = some x → ∀ h ∈ x.parties, (∀ m ∈ x.ringSet, m.handset ≠ h) → s.lineState h = .connected →
    s.reachable h = true → Command.clear h.node c ∈ (t.risers[h.riser]).control ∧ t.call? c ≠ none

/-! ### The start of a call -/

/-- What admission comes to before any slot is asked for (R14 to R16): a refusal with its cause; the desk queue; or
check 10, a slot request towards the apartment `target`. `original` is the apartment the code names. -/
inductive Verdict where
  | refused (cause : Cause)
  | desk (original : Option DirIndex)
  | seeks (original target : DirIndex)
  deriving DecidableEq, Repr

/-- Checks 3 to 8 of a call towards the apartment with a code (R14, R15), with `p` said of the verdict they come to. A
failed check 7 or 8 forwards a call whose class may, by the first usable step of the apartment's chain (R24). -/
def Judges (x : Call) (code : BitVec 16) (s : State) (p : Verdict → Prop) : Prop :=
  (x.params.base = 0 → p (.refused .classOff)) ∧
  (x.params.base ≠ 0 → x.params.base ≤ s.ctl.floor → p (.refused .floor)) ∧
  (x.params.base ≠ 0 → s.ctl.floor < x.params.base →
    (s.entryOfCode code = none → p (.refused .noSuch)) ∧
    ∀ (i : DirIndex) (a : Apartment), s.entryOfCode code = some i → s.dir.entries[i] = some a →
      let own := x.cls = .neighbour ∧ ∃ h : Handset, x.origin = .handset h ∧ s.entryListing h = some i
      let barred := a.hasPrivacy = true ∧ x.params.hasPrivacy = true
      (own → p (.refused .noSuch)) ∧
      (¬ own → s.feedOn a.riser = false → p (.refused .lineFault)) ∧
      (¬ own → s.feedOn a.riser = true → ¬ barred → s.ringable i ≠ [] → p (.seeks i i)) ∧
      (¬ own → s.feedOn a.riser = true → barred ∨ s.ringable i = [] →
        let step := if x.params.forward = true then a.chain.find? (s.stepUsable x) else none
        (step = none → p (.refused (if barred then .isPrivate else .busy))) ∧
        (step = some .desk → p (.desk (some i))) ∧
        ∀ j : DirIndex, step = some (.apartment j) → p (.seeks i j)))

/-- Checks 3, 4 and 9 of a call whose target is DESK (R14, R16), with `p` said of the verdict they come to. -/
def JudgesDesk (x : Call) (s : State) (p : Verdict → Prop) : Prop :=
  (x.params.base = 0 → p (.refused .classOff)) ∧
  (x.params.base ≠ 0 → x.params.base ≤ s.ctl.floor → p (.refused .floor)) ∧
  (x.params.base ≠ 0 → s.ctl.floor < x.params.base →
    (s.desk.isOpen = false ∨ (s.link .desk).up = false → p (.refused .deskClosed)) ∧
    (s.desk.isOpen = true → (s.link .desk).up = true →
      (8 ≤ s.desk.queue.length ∨ x.params.queue = 0 → p (.refused .deskBusy)) ∧
      (s.desk.queue.length < 8 → x.params.queue ≠ 0 → p (.desk none))))

/-- From `s` to `t` the origin of a call is told of it (R12, R18, R19, R27): an entrance and a console line by
PROGRESS on their link, a handset by its tone, BUSY only when it is OFFHOOK; said while the send list or the
indication queue has room for what comes before. -/
def Told (o : Origin) (s t : State) (p : Progress) : Prop :=
  match o with
  | .entrance e => (s.link (.entrance e)).sendList.length < 16 →
      Frame.signal (.progress none p) ∈ (t.link (.entrance e)).sendList
  | .line l => (s.link .desk).sendList.length < 16 → Frame.signal (.progress (some l) p) ∈ (t.link .desk).sendList
  | .handset h => s.reachable h = true → (s.risers[h.riser]).indications.length ≤ 8 →
      let sent := fun k : Tone => { node := h.node, content := .tone k } ∈ (t.risers[h.riser]).indications
      match p with
      | .waiting => sent .wait
      | .ringing _ => sent .ringback
      | .ended _ => s.lineState h = .offhook → sent .busy
      | .warn => sent .warn
      | .connected => True
      | .door => True

/-- From `s` to `t`, where call `c`, `x` before it, rings apartment `j` over `slots` (R19): it holds them, its ring
set is the apartment's handsets that may ring, each in line state RINGING and shown the origin and rung while the
queue has room, and its cadence is at the start of on1. -/
structure Rings (c : CallId) (x : Call) (i j : DirIndex) (slots : List (Riser × Slot)) (s t : State) : Prop where
  call : ∃ y, t.call? c = some y ∧ y.state = .ringing ∧ y.target = .apartment j ∧ y.original = some i ∧
    y.slots = slots ∧ y.ringSet.map Member.handset = s.ringable j ∧ y.cycles = 0 ∧ y.waitKind = none ∧
    y.offerMs = some (x.offerMs.getD 0) ∧ y.segment = some (.on1, 50 * (s.dir.profiles[y.params.profile]).on1)
  lines : ∀ h ∈ s.ringable j, t.lineState h = .ringing
  holder : ∀ p ∈ slots, ((t.arb.risers[p.1]).cells[p.2]).holder = some c
  shown : ∀ h ∈ s.ringable j, (s.risers[h.riser]).indications.length ≤ 8 →
    { node := h.node, content := .display x.origin } ∈ (t.risers[h.riser]).indications ∧
    ({ node := h.node, content := .ring .sound } ∈ (t.risers[h.riser]).indications ∨
      { node := h.node, content := .ring .silent } ∈ (t.risers[h.riser]).indications)
  told : ∀ a, s.dir.entries[j] = some a → Told x.origin s t (.ringing a.label)

/-- From `s` to `t`, the members `ms` of call `c`'s ring set have been judged at an ON segment start, in list order
(R82): one whose load fits the budget on top of the riser's sum and of the members admitted before it sounds, with that
load, at the end of the sounding set; another rings silently with one more skipped segment. Each is told so by RING
SOUND or SILENT, said while it can be reached and its riser's indication queue has room. -/
def RingJudged (c : CallId) (ms : List Member) (s t : State) : Prop :=
  ∃ y, t.call? c = some y ∧ y.ringSet.length = ms.length ∧
    (∀ (k : Nat) (m n : Member), ms[k]? = some m → y.ringSet[k]? = some n →
      let r := m.handset.riser
      let load := (s.handsetEntry m.handset).load
      let before := (((y.ringSet.take k).filter fun z => z.handset.riser == r).map Member.load).sum
      let told := fun i : RingKind => s.reachable m.handset = true → (ms.map Member.handset).Nodup →
        (s.risers[r]).indications.length + 2 * ms.length ≤ 24 →
        { node := m.handset.node, content := .ring i } ∈ (t.risers[r]).indications
      n.handset = m.handset ∧
      (s.soundSum r + before + load ≤ s.beff r →
        n.sounding = true ∧ n.load = load ∧ n.skipped = m.skipped ∧ told .sound) ∧
      (s.beff r < s.soundSum r + before + load →
        n.sounding = false ∧ n.load = 0 ∧ n.skipped = min 65535 (m.skipped + 1) ∧ told .silent)) ∧
    ∀ r : Riser, t.ring.sounding[r] = s.ring.sounding[r] ++
      (y.ringSet.filter fun z => z.sounding && z.handset.riser == r).map
        fun z => { node := z.handset.node, call := c, load := z.load }

/-- From `s` to `t`, where call `c`, `x` before it, waits for a slot in riser `r`'s list, in its place by arrival (R17,
R53, R56). -/
structure Waits (c : CallId) (x : Call) (i j : DirIndex) (r : Riser) (s t : State) : Prop where
  call : ∃ y, t.call? c = some y ∧ y.state = .waiting ∧ y.waitKind = some (.riser r) ∧ y.waitMs = 0 ∧
    y.target = .apartment j ∧ y.original = some i ∧ y.slots = []
  wait : (t.arb.risers[r]).wait = insertByStamp t.stampOf c (s.arb.risers[r]).wait
  told : Told x.origin s t .waiting

/-- From `s` to `t`, where call `c` waits in the desk queue, in its place by arrival, and is offered to the console
(R16, R56, R98). -/
structure Queues (c : CallId) (x : Call) (i : Option DirIndex) (s t : State) : Prop where
  call : ∃ y, t.call? c = some y ∧ y.state = .waiting ∧ y.waitKind = some .desk ∧ y.waitMs = 0 ∧ y.target = .desk ∧
    y.original = i ∧ y.offerMs = some (x.offerMs.getD 0) ∧ y.slots = [] ∧
    ((s.link .desk).sendList.length < 16 → Frame.signal (.offer c y.cls y.origin y.level) ∈ (t.link .desk).sendList)
  queue : t.desk.queue = insertByStamp t.stampOf c s.desk.queue
  told : Told x.origin s t .waiting

/-- The risers whose slots a call needs towards an apartment on riser `r` (R17). -/
def needsOf (x : Call) (r : Riser) : List Riser :=
  match x.origin with
  | .handset h => if h.riser = r then [r] else [r, h.riser]
  | _ => [r]

/-- The victim whose slot on riser `r` call `x` takes as it joins that riser's list (R66, R67): only a call with PREEMPT
that needs one riser seeks one, and not while calls in ENDING bring the riser below its usable count. -/
def victimFor (x : Call) (needs : List Riser) (r : Riser) (s : State) : Option (Slot × CallId) :=
  let a := s.arb.risers[r]
  if x.params.preempt = true ∧ needs.length = 1 ∧ s.returning r < a.held + 1 - s.arb.usable then
    s.victimIn r x.params.base a.order
  else none

/-- Check 10, the slot request of call `c` towards apartment `j` (R17, R51 to R53), where `d` is `s` with the call's
record as it stands when it asks: NO-PATH with a needed feed off; granted at once, and ringing over the lowest FREE
slot of each riser needed; NO-PATH for a queue limit of 0 or a full list; or placed in the list of the first needed
riser that is short. There a call that finds a victim has its slot reserved, and waits while a party of the victim is
cleared, or rings over the slot at once when the victim completes at once (R66 to R69). -/
def Requests (c : CallId) (x : Call) (i j : DirIndex) (s d t : State) : Prop :=
  ∀ b : Apartment, s.dir.entries[j] = some b →
    let needs := needsOf x b.riser
    let failed := Ends c .noPath d t ∧ Told x.origin s t (.ended .noPath)
    ((∃ r ∈ needs, s.feedOn r = false) → failed) ∧
    ((∀ r ∈ needs, s.canGrant r = true) →
      Rings c x i j (needs.map fun r => (r, ((s.arb.risers[r]).freeSlot).getD 0)) s t) ∧
    ((∀ r ∈ needs, s.feedOn r = true) → ∀ r : Riser, needs.find? (fun q => !s.hasRoom q) = some r →
      (x.params.queue = 0 ∨ 8 ≤ (s.arb.risers[r]).wait.length → failed) ∧
      (x.params.queue ≠ 0 → (s.arb.risers[r]).wait.length < 8 →
        (victimFor x needs r s = none → Waits c x i j r s t) ∧
        ∀ (k : Slot) (v : CallId) (y : Call), victimFor x needs r s = some (k, v) → s.call? v = some y →
          y.waitKind = none →
          ((∃ g ∈ y.parties, s.lineState g = .connected ∧ s.reachable g = true ∧ ∀ m ∈ y.ringSet, m.handset ≠ g) →
            Waits c x i j r s t ∧ (t.arb.risers[r]).cells[k] = { holder := some v, reserved := some c } ∧
            ∃ z, t.call? v = some z ∧ z.state = .ending ∧ z.cause = some .preempted) ∧
          (y.parties = [] → y.slots = [(r, k)] → (s.arb.risers[r]).held ≤ s.arb.usable →
            (∀ q : Slot, ((s.arb.risers[r]).cells[q]).holder = none → ((s.arb.risers[r]).cells[q]).reserved = none) →
            t.call? v = none ∧ (t.arb.risers[r]).cells[k] = { holder := some c, reserved := none } ∧
            c ∉ (t.arb.risers[r]).wait ∧
            ∃ z, t.call? c = some z ∧ z.state = .ringing ∧ z.target = .apartment j ∧ z.slots = [(r, k)])))

/-- What a verdict leads to for call `c`, `x` when its record is taken: `d` is `s` with that record (R15 to R18). -/
def Admits (c : CallId) (x : Call) (s d t : State) : Verdict → Prop
  | .refused k => Ends c k d t ∧ Told x.origin s t (.ended k)
  | .desk i => Queues c x i s t
  | .seeks i j => Requests c x i j s d t

/-- The ring timeout of call `c`, `x` in `s`, whose class forwards and whose original apartment is `a` at index `i`:
from `q`, where its ringing has been stopped, to `t` (R23 to R25). The steps left of the chain are considered in order,
each moving the chain position: none usable, it ends NO-ANSWER; a DESK step, it returns its slots and joins the desk
queue; an apartment for which it holds every slot needed, it rings again over them; another, it returns its slots and
asks for new ones. -/
def Forwards (c : CallId) (x : Call) (i : DirIndex) (a : Apartment) (s q t : State) : Prop :=
  let left := a.chain.drop x.chainPos
  let step := left.find? (q.stepUsable x)
  (step = none → Ends c .noAnswer s t ∧ Told x.origin q t (.ended .noAnswer)) ∧
  (step ≠ none → ∀ y : Call, t.call? c = some y →
    y.forwardStep = x.forwardStep + 1 ∧ y.chainPos = x.chainPos + left.findIdx (q.stepUsable x) + 1) ∧
  (step = some .desk → Queues c x (some i) q t ∧
    ∀ p ∈ x.slots, ((t.arb.risers[p.1]).cells[p.2]).holder = none) ∧
  ∀ (j : DirIndex) (b : Apartment), step = some (.apartment j) → s.dir.entries[j] = some b →
    ((∀ r ∈ needsOf x b.riser, x.slotOn r ≠ none) → Rings c x i j x.slots q t) ∧
    ((∃ r ∈ needsOf x b.riser, x.slotOn r = none) → Requests c x i j (q.returnSlots c) (q.returnSlots c) t)

/-- From `s` to `t`, handset `h` has originated an URGENT call, judged as `s` stands: a record was taken, and it is in
the desk queue or has been refused; the handset is IDLE (R9, R14, R16). -/
def OriginatesUrgent (h : Handset) (s t : State) : Prop :=
  let z := s.newCall .urgent (.handset h) .desk
  t.lineState h = .idle ∧ ∃ u, s.freeRecord = some u ∧ JudgesDesk z s (Admits u z s (s.takeRecord u z) t)

/-! ### The use of a bus -/

/-- `n` is the enrolled address that follows the poll pointer, wrapping to the lowest (R116). -/
def RiserControl.Follows (u : RiserControl) (n : Node) : Prop :=
  u.presence[n] ≠ .absent ∧
  ((∀ q : Node, u.pointer = some q → q < n ∧ ∀ z : Node, q < z → z < n → u.presence[z] = .absent) ∧
      (u.pointer = none → ∀ z : Node, z < n → u.presence[z] = .absent) ∨
    ∃ q : Node, u.pointer = some q ∧ (∀ z : Node, q < z → u.presence[z] = .absent) ∧
      ∀ z : Node, z < n → u.presence[z] = .absent)

/-- `n` is the lowest unenrolled address from a survey's next address up (R128). -/
def RiserControl.Probes (u : RiserControl) (v : Survey) (n : Node) : Prop :=
  v.next ≤ n.val ∧ u.presence[n] = .absent ∧ ∀ z : Node, v.next ≤ z.val → z < n → u.presence[z] ≠ .absent

/-- `n` follows the attention position in list order, wrapping to the head of the list (R117). -/
def RiserControl.Attends (u : RiserControl) (n : Node) : Prop :=
  (∀ p : Node, u.attentionPos = some p → ∃ k < u.attention.length,
    u.attention[k]? = some p ∧ (∀ z < k, u.attention[z]? ≠ some p) ∧
      (u.attention[k + 1]? = some n ∨ k + 1 = u.attention.length ∧ u.attention.head? = some n)) ∧
  (u.attentionPos = none → u.attention.head? = some n)

/-- A survey of the riser, if one runs, has passed every unenrolled address (R128). -/
def RiserControl.Surveyed (u : RiserControl) : Prop :=
  ∀ (w : Survey) (n : Node), u.survey = some w → w.next ≤ n.val → u.presence[n] ≠ .absent

/-- From `u` to `v`, where the free bus has taken its next use (R115 to R119): the command at the head of the control
queue; else the indication at the head of the other; else, after a regular poll, an extra poll, which toggles the turn:
of the address that follows the attention position, or of the lowest unenrolled address a survey has not passed, by the
turn when both apply; else the regular poll of the enrolled address that follows the pointer, after the poll pause when
it is not 0 and no handset is on the attention list; nothing with no address to poll or to probe. -/
structure NextUse (u v : RiserControl) : Prop where
  kept : v.control = u.control ∧ v.indications = u.indications ∧ v.attention = u.attention ∧ v.presence = u.presence
  command : u.control ≠ [] → v.use = .control ∧ v.useMs = 2 ∧ v.controlTry = max 1 u.controlTry ∧
    v.lastPoll = u.lastPoll ∧ v.turn = u.turn ∧ v.pointer = u.pointer
  indication : u.control = [] → u.indications ≠ [] → v.use = .indication ∧ v.useMs = 2 ∧
    v.indicationTry = max 1 u.indicationTry ∧ v.lastPoll = u.lastPoll ∧ v.turn = u.turn ∧ v.pointer = u.pointer
  attention : u.control = [] → u.indications = [] → ∀ n : Node, u.lastPoll = .regular → u.attention ≠ [] →
    u.Surveyed ∨ u.turn = .attention → u.Attends n →
    v.use = .attentionPoll n ∧ v.useMs = 2 ∧ v.attentionPos = some n ∧ v.lastPoll = .extra ∧ v.turn ≠ u.turn ∧
      v.pointer = u.pointer ∧ v.survey = u.survey
  probe : u.control = [] → u.indications = [] → ∀ (w : Survey) (n : Node), u.lastPoll = .regular → u.survey = some w →
    u.Probes w n → u.attention = [] ∨ u.turn = .survey →
    v.use = .probe n ∧ v.useMs = 2 ∧ v.survey = some { w with next := n.val + 1 } ∧ v.lastPoll = .extra ∧
      v.turn ≠ u.turn ∧ v.pointer = u.pointer ∧ v.attentionPos = u.attentionPos
  pause : u.control = [] → u.indications = [] → u.lastPoll = .extra ∨ u.Surveyed → u.attention = [] → u.pause ≠ 0 →
    (∃ n : Node, u.presence[n] ≠ .absent) →
    v.use = .pause ∧ v.useMs = u.pause ∧ v.lastPoll = u.lastPoll ∧ v.pointer = u.pointer
  regular : u.control = [] → u.indications = [] → u.lastPoll = .extra ∨ u.attention = [] ∧ u.Surveyed →
    u.pause = 0 ∨ u.attention ≠ [] → ∀ n : Node, u.Follows n →
    v.use = .regularPoll n ∧ v.useMs = 2 ∧ v.pointer = some n ∧ v.lastPoll = .regular ∧ v.turn = u.turn
  idle : u.control = [] → u.indications = [] → u.attention = [] → u.Surveyed → (∀ n : Node, u.presence[n] = .absent) →
    v.use = .idle

/-! ### The supply mode -/

/-- From `s` to `t`, where the supply mode `m` has been set and its values given to their owners (R14, R50, R80, R119,
R172); DEPLETED has SUPPLY-DEPLETED latched (R171, R173), and no other condition but URGENT-UNANSWERED changes. -/
structure ModeSet (s : State) (m : Mode) (t : State) : Prop where
  supply : t.supply = { s.supply with mode := some m }
  percent : t.ring.percent = s.supply.record.percentOf m
  usable : t.arb.usable = s.supply.record.slotsOf m
  floor : t.ctl.floor = s.supply.record.floorOf m
  pause : ∀ r : Riser, (t.risers[r]).pause = s.supply.record.pauseOf m
  fits : ∀ r : Riser, RingSafe s → t.soundSum r ≤ t.beff r
  depleted : m = .depleted → t.mgmt.conditions.latched .supplyDepleted = true
  conditions : ∀ k : Condition, k ≠ .urgentUnanswered → k ≠ .supplyDepleted →
    t.mgmt.conditions.latched k = s.mgmt.conditions.latched k
  dir : t.dir = s.dir
  doors : t.doors = s.doors
  meas : t.meas = s.meas
  feeds : t.feeds = s.feeds
  store : t.store = s.store
  startup : t.startup = s.startup
  stamp : t.ctl.stamp = s.ctl.stamp
  isOpen : t.desk.isOpen = s.desk.isOpen
  windows : t.mgmt.windows = s.mgmt.windows
  mask : t.mgmt.mask = s.mgmt.mask
  presence : ∀ r : Riser, (t.risers[r]).presence = (s.risers[r]).presence

/-! ### Requests -/

/-- The byte that names a forward step, as a number: a directory index, or FFh for DESK (spec/13, 13.3). -/
def stepNumber : Machine.Step → Nat
  | .apartment j => j.val
  | .desk => 0xFF

/-- A table write or clear of an allowed source, past checks 4 and 5 of R176: an index that names no entry is answered
BAD-INDEX, a request taken while a SAVE is in progress STORE-BUSY, both without any effect; for the others `p` holds. -/
def TableGate (m : Instr) (src : Link) (tag req : Byte) (named : Bool) (s : State) (p : Prop) : Prop :=
  s.sourceAllowed src = true →
    (named = false → exec m s = .next ((s.frameIn src).reply src tag req { code := .badIndex })) ∧
    (named = true → s.saving = true → exec m s = .next ((s.frameIn src).reply src tag req { code := .storeBusy })) ∧
    (named = true → s.saving = false → p)

/-- The link a management request came by, and its tag (R174, R176). -/
def requester : Instr → Option (Link × Byte)
  | .restart src tag => some (src, tag)
  | .manageUnknownRequest src tag _ _ => some (src, tag)
  | .readEntry src tag _ _ => some (src, tag)
  | .writeEntryDirectory src tag _ _ => some (src, tag)
  | .clearEntryDirectory src tag _ => some (src, tag)
  | .writeEntryHandset src tag _ _ => some (src, tag)
  | .clearEntryHandset src tag _ => some (src, tag)
  | .writeEntryClass src tag _ _ => some (src, tag)
  | .clearEntryClass src tag _ => some (src, tag)
  | .writeEntryProfile src tag _ _ => some (src, tag)
  | .clearEntryProfile src tag _ => some (src, tag)
  | .writeEntryDoor src tag _ _ => some (src, tag)
  | .clearEntryDoor src tag _ => some (src, tag)
  | .writeEntryRiser src tag _ _ => some (src, tag)
  | .clearEntryRiser src tag _ => some (src, tag)
  | .writeEntrySupply src tag _ _ => some (src, tag)
  | .clearEntrySupply src tag _ => some (src, tag)
  | .queryCalls src tag _ => some (src, tag)
  | .queryStatus src tag _ _ => some (src, tag)
  | .clearCondition src tag _ _ => some (src, tag)
  | .setMask src tag _ => some (src, tag)
  | .doorRelease src tag _ => some (src, tag)
  | .callClear src tag _ => some (src, tag)
  | .riserFeed src tag _ _ => some (src, tag)
  | .riserSurvey src tag _ => some (src, tag)
  | .serviceWindow src tag _ _ => some (src, tag)
  | .manageDeskOpen src tag => some (src, tag)
  | .manageDeskClose src tag => some (src, tag)
  | .save src tag => some (src, tag)
  | .coldStart _ => none
  | .firstSupplyMode => none
  | .startupSwitchOn => none
  | .frameDiscarded _ => none
  | .frameAbandoned _ => none
  | .statusReceived _ => none
  | .signalDisregarded _ => none
  | .livenessTimerExpiry _ => none
  | .statusDue _ => none
  | .frameSent _ => none
  | .noticeTaken => none
  | .call _ _ => none
  | .callDesk _ => none
  | .cancel _ => none
  | .deskCall _ => none
  | .deskAnswer _ => none
  | .deskHold _ => none
  | .deskResume _ => none
  | .deskEnd _ => none
  | .deskRelease _ => none
  | .deskOpen => none
  | .deskClose => none
  | .manageEmptyBody _ => none
  | .saveEraseDone => none
  | .savePageWritten _ => none
  | .saveMarkWritten _ => none
  | .serviceWindowExpiry _ => none
  | .pollPauseEnd _ => none
  | .noneReply _ _ => none
  | .hookOff _ _ => none
  | .hookOn _ _ => none
  | .keyDoor _ _ => none
  | .keyDesk _ _ => none
  | .dial _ _ _ => none
  | .keyUrgent _ _ => none
  | .keyPrivacy _ _ => none
  | .missedPoll _ _ => none
  | .ack _ _ _ => none
  | .commandNoAck _ _ => none
  | .surveyProbe _ _ => none
  | .cadenceSegmentEnd _ => none
  | .talkWarning _ => none
  | .talkLimit _ => none
  | .queueLimit _ => none
  | .deskQueueLimit _ => none
  | .delayEnd _ => none
  | .driveEnd _ => none
  | .graceExpiry _ => none
  | .doorOpening _ => none
  | .doorClosing _ => none
  | .heldTimerExpiry _ => none
  | .feedVoltageConversion _ _ => none
  | .feedCurrentConversion _ _ => none
  | .batteryConversion _ => none
  | .debouncedMainsChange _ => none
  | .settleEnd _ => none
  | .retryExpiry _ => none
  | .stableExpiry _ => none
  | .doorContactSample _ _ => none
  | .mainsSenseSample _ => none

end Sys2Proof.Machine
end

