-- ==== Sys2Proof/Certificates/Slice0/Obligations.lean ====
section
/-! DEFINITION. The statements about the exchange, for the provers. Each says what a command leaves, over every state
that meets its premises; `Completes i s P` says that the command answers a next state of which `P` holds, `Steady` and
`Undisturbed` are the frames (Sys2Proof/Safety.lean). The statements whose premise is that no grant event is due hold
between commands by `Obligations.NoGrantEventStaysDue`. -/

open Sys2Proof Sys2Proof.Machine

/-! ### The machine -/

/-- One step takes the command at the front of the queue and is that command's effect on the queue's rest. -/
def Obligations.StepTakesFrontCommand : Prop :=
  ∀ (c : Instr) (rest : List Instr) (s : State), s.pending = c :: rest → step s = exec c { s with pending := rest }

/-- A step on an empty queue is one millisecond (the model's choice, notes/assumptions/1.md). It puts the events that
fall due in the queue, those that `FallsDue` names and no other; every running timer falls by 1 ms and every elapsed time rises by 1 ms; a link that sends nothing
begins to send the first frame of its send list; a bus in use is a millisecond nearer the end of that use. Every table,
the slots, ringing, console, measurement, supply and store, the line states, the presence of every node, the riser
queues and the state of every feed and door stay as they are. -/
def Obligations.IdleStepIsOneMillisecond : Prop :=
  ∀ s : State, s.pending = [] →
    let fall := fun k : Option Nat => k.map fun n => n - 1
    let rise := fun k : Option Nat => k.map fun n => n + 1
    ∃ t : State, step s = .next t ∧ t.pending = s.dueEvents ∧ (∀ i : Instr, i ∈ t.pending ↔ FallsDue s i) ∧ t.dir = s.dir ∧ t.arb = s.arb ∧ t.ring = s.ring ∧
      t.desk = s.desk ∧ t.meas = s.meas ∧ t.supply = s.supply ∧ t.store = s.store ∧ t.ctl.lines = s.ctl.lines ∧
      t.ctl.stamp = s.ctl.stamp ∧ t.ctl.floor = s.ctl.floor ∧ t.mgmt.notices = s.mgmt.notices ∧
      t.mgmt.lost = s.mgmt.lost ∧ t.mgmt.conditions = s.mgmt.conditions ∧ t.mgmt.mask = s.mgmt.mask ∧
      t.startup = s.startup.map (fun x => { x with ms := x.ms - 1 }) ∧
      (∀ c : CallId, t.call? c = (s.call? c).map fun x =>
        { x with waitMs := if x.state = .waiting then x.waitMs + 1 else x.waitMs, offerMs := rise x.offerMs,
                 talkMs := if x.state = .talk ∨ x.state = .held then rise x.talkMs else x.talkMs,
                 segment := x.segment.map fun p => (p.1, p.2 - 1) }) ∧
      (∀ r : Riser, t.feeds[r] = { s.feeds[r] with settle := fall (s.feeds[r]).settle, retry := fall (s.feeds[r]).retry,
                                                   stable := fall (s.feeds[r]).stable }) ∧
      (∀ r : Riser,
        let u := s.risers[r]
        let v := t.risers[r]
        v.presence = u.presence ∧ v.missed = u.missed ∧ v.control = u.control ∧ v.indications = u.indications ∧
        v.allClearMs = u.allClearMs - 1 ∧
        (u.use ≠ .idle → u.use ≠ .pause → v = { u with useMs := u.useMs - 1, allClearMs := u.allClearMs - 1 })) ∧
      (∀ l : Link,
        let u := s.link l
        let v := { u with liveness := fall u.liveness, statusMs := u.statusMs - 1, gap := fall u.gap }
        t.link l = if u.sending = none then { v with sending := u.sendList.head?, sendList := u.sendList.tail } else v) ∧
      ∀ e : Entrance, t.mgmt.windows[e] = fall (s.mgmt.windows[e]) ∧
        t.doors[e] = { s.doors[e] with
          run := (s.doors[e]).run.map fun d => { d with ms := d.ms - 1 }
          grace := fall (s.doors[e]).grace
          held := fall (s.doors[e]).held }

/-- Every command leaves a next state, and leaves the queue of waiting commands to the step: the spec gives the
exchange no way to stop. -/
def Obligations.EveryCommandLeavesTheQueue : Prop :=
  ∀ (c : Instr) (s : State), Completes c s fun t => t.pending = s.pending

/-! ### Invariants that every step keeps -/

/-- On every riser the sounding loads stay within the effective ring budget, whatever the step (R83). -/
def Obligations.RingBudgetKept : Prop :=
  ∀ s t : State, RingSafe s → step s = .next t → RingSafe t

/-- After reset the sounding loads fit, every queue is within its bound, timers and console lines are in order, the
directory is unique and lists at most four nodes an apartment, and the call table, the calls' slots and the handsets'
roles are in order; no grant event is due. -/
def Obligations.InvariantsHoldAtReset : Prop :=
  RingSafe State.reset ∧ QueuesBounded State.reset ∧ Supervised State.reset ∧ DirectoryApart State.reset ∧
    NodesFew State.reset ∧ CallsInOrder State.reset ∧ SlotsInOrder State.reset ∧ RolesInOrder State.reset ∧
    State.reset.arb.due = []

/-- No wait list, desk queue, notice queue, indication queue or send list outgrows its bound, whatever the step. -/
def Obligations.QueueBoundsKept : Prop :=
  ∀ s t : State, QueuesBounded s → step s = .next t → QueuesBounded t

/-- Liveness, held, retry, settle and stable timers run in no state but their own, and at most one console line is
ACTIVE, whatever the step. -/
def Obligations.TimersAndLinesKept : Prop :=
  ∀ s t : State, Supervised s → step s = .next t → Supervised t

/-- No two used directory entries share a code or list one handset (R36), and none lists more than four nodes (R35),
whatever the step, and the same of the settings the store holds. -/
def Obligations.DirectoryRulesKept : Prop :=
  (∀ s t : State, DirectoryApart s → step s = .next t → DirectoryApart t) ∧
  (∀ s t : State, NodesFew s → step s = .next t → NodesFew t)

/-- The call table stays in order, whatever the step (`CallsInOrder`): wait lists and desk queue hold WAITING calls of
their own kind (R16, R17, R57), only a RINGING call has a ring set (R19, R20, R27), a desk claim waits in its origin's
riser (R54, R102), an entrance or a handset originates at most one live call (R12), a line that a call out of ENDING
names holds that call (R96, R104), and such a call has its origin's link UP (R95, R139). With it the slots stay in order
(`SlotsInOrder`): a live call holds at most two, each of another riser, and one that waits none (spec/01, 1.1, 1.2). -/
def Obligations.CallTableKept : Prop :=
  (∀ s t : State, CallsInOrder s → SlotsInOrder s → step s = .next t → CallsInOrder t) ∧
  (∀ s t : State, CallsInOrder s → SlotsInOrder s → step s = .next t → SlotsInOrder t)

/-- Every handset has a role in at most one live call out of ENDING, and its line state is that role's, whatever the
step, while the call table is in order, and a call in TALK or HELD has been answered, its latency captured (R3, R20;
`RolesInOrder`). -/
def Obligations.HandsetRolesKept : Prop :=
  ∀ s t : State, CallsInOrder s → SlotsInOrder s → RolesInOrder s → step s = .next t → RolesInOrder t

/-- In no state that the exchange reaches from reset, whatever commands come and whenever, does a riser's control queue
hold more than 16 commands (R124; notes/assumptions/34.md): what queues SLOT and CLEAR tests no bound. -/
def Obligations.ControlQueueBounded : Prop :=
  ∀ s : State, Reached s → ∀ r : Riser, (s.risers[r]).control.length ≤ 16

/-- Every grant event that a step makes due is taken within it (R60): none stays due. -/
def Obligations.NoGrantEventStaysDue : Prop :=
  ∀ s t : State, s.arb.due = [] → step s = .next t → t.arb.due = []

/-! ### What the wire spells -/

/-- Every well-formed signal and request, framed, is read back as itself: the bytes of its frame, received one by one
on its link from HUNTING, spell that one command and leave the receiver in HUNTING. The check over the nine digit
characters is 29B1h (R193). -/
def Obligations.FramesReadBack : Prop :=
  crc16 [0x31, 0x32, 0x33, 0x34, 0x35, 0x36, 0x37, 0x38, 0x39] = 0x29B1 ∧
  ∀ (i : Instr) (l : Link) (kind : Byte) (body : List Byte), i.wellFormed = true → frameOf i = some (l, kind, body) →
    receiveAll l [] (frameBytes kind body) = ([], [i])

/-- The words of every reply to a POLL or a message are read as the reply they are (R113, R194), for every riser,
node, use of the bus, dialled code and message code; words of bad parity are none of them. -/
def Obligations.ReplyWordsReadBack : Prop :=
  ∀ (r : Riser) (u : BusUse) (n : Node),
    windowCommand r u (messageWords (addressOf n) [0x40]) = some (.noneReply r n) ∧
    windowCommand r u (messageWords (addressOf n) [0x41]) = some (.hookOff r n) ∧
    windowCommand r u (messageWords (addressOf n) [0x42]) = some (.hookOn r n) ∧
    windowCommand r u (messageWords (addressOf n) [0x43, 1]) = some (.keyDoor r n) ∧
    windowCommand r u (messageWords (addressOf n) [0x43, 2]) = some (.keyDesk r n) ∧
    windowCommand r u (messageWords (addressOf n) [0x43, 3]) = some (.keyUrgent r n) ∧
    windowCommand r u (messageWords (addressOf n) [0x43, 4]) = some (.keyPrivacy r n) ∧
    (∀ code : BitVec 16,
      windowCommand r u (messageWords (addressOf n) (0x44 :: bytesOf code)) = some (.dial r n code)) ∧
    (∀ code : Byte, messageCode code = true →
      windowCommand r u (messageWords (addressOf n) [0x45, code]) = some (.ack r n code)) ∧
    ∀ (ws : List (BitVec 10)) (w : BitVec 10), w ∈ ws → goodParity w = false →
      windowCommand r u ws = failedWindow r u .badParity

/-! ### Links -/

/-- An entrance link whose liveness timer runs out goes DOWN: what waits on it is discarded, the entrance's service
window closes, and its call ends LINK-LOST (R138, R139). The desk link goes DOWN: the queued calls end DESK-CLOSED and
those on the lines LINK-LOST; what waits on the link stays. While no call waits for a slot, each of them that has not
completed is in ENDING with that cause (R95). On a DOWN link, and when a valid frame taken first in the same millisecond
has started the timer again, the link stays as it is and nothing is reported (R138; notes/assumptions/2.md). -/
def Obligations.LinkGoesDown : Prop :=
  (∀ (l : Link) (s : State), (s.link l).up = false ∨ (s.link l).liveness = some 3000 →
     exec (.livenessTimerExpiry l) s = .next s) ∧
  (∀ (e : Entrance) (s : State), (s.link (.entrance e)).up = true → (s.link (.entrance e)).liveness ≠ some 3000 →
     let d := (s.modLink (.entrance e) fun u => { u with up := false, liveness := none, sendList := [] }).putWindow e
       none
     Completes (.livenessTimerExpiry (.entrance e)) s fun t => Steady d t ∧
       ∀ (c : CallId) (x : Call), s.originCall (.entrance e) = some c → s.call? c = some x → x.state ≠ .ending →
         Ends c .linkLost d t) ∧
  (∀ s : State, (s.link .desk).up = true → (s.link .desk).liveness ≠ some 3000 →
     Completes (.livenessTimerExpiry .desk) s fun t =>
       Steady (s.modLink .desk fun u => { u with up := false, liveness := none }) t ∧
       (∀ (c : CallId) (x : Call), c ∈ s.desk.queue ∨ c ∈ s.desk.lineCalls → s.call? c = some x → x.state ≠ .ending →
         x.parties = [] → t.call? c = none) ∧
       (NoWaiters s → ∀ (c : CallId) (x y : Call), s.call? c = some x → x.state ≠ .ending → t.call? c = some y →
         (c ∈ s.desk.queue → y.state = .ending ∧ y.cause = some .deskClosed) ∧
         (c ∉ s.desk.queue → c ∈ s.desk.lineCalls → y.state = .ending ∧ y.cause = some .linkLost) ∧
         (c ∉ s.desk.queue → c ∉ s.desk.lineCalls → y = x)))

/-- Receiving: a discarded and an abandoned frame each raise their link's frame error counter by one, saturating; an
abandoned one returns the unit to HUNTING; nothing else changes, the liveness timer included (R136). That an abandoned
frame leaves the byte of a next frame that has come in the same millisecond is the model's reading
(notes/assumptions/2.md and 26.md). A valid frame whose content is disregarded, and a MANAGE frame
without a request, bring their link UP or keep it so, with the liveness timer at 3 s (R137, R138, R176). Sending: a
STATUS falls due: the period starts again; the STATUS joins the send list and the sequence rises by one, unless an
earlier STATUS still waits. A full list drops it and counts the loss, the sequence rising all the same (R140, R141;
notes/assumptions/32.md). Frames of a link leave its send list in the order they joined it, each when its sending
begins (R140). A notice is taken from the head of the queue, with the notices-lost flag, which it clears, when the
desk link is UP with nothing waiting to be sent (R183). -/
def Obligations.LinkFramesInAndOut : Prop :=
  (∀ (l : Link) (s : State),
     exec (.frameDiscarded l) s = .next (s.modLink l fun u => { u with frameErrors := min 65535 (u.frameErrors + 1) }) ∧
     ((s.link l).gap ≠ some 21 → exec (.frameAbandoned l) s = .next (s.modLink l fun u =>
       { u with frameErrors := min 65535 (u.frameErrors + 1), received := [], gap := none })) ∧
     ((s.link l).gap = some 21 → exec (.frameAbandoned l) s = .next (s.modLink l fun u =>
       { u with frameErrors := min 65535 (u.frameErrors + 1) })) ∧
     ∀ c : Instr, c = .statusReceived l ∨ c = .signalDisregarded l ∨ c = .manageEmptyBody l →
       exec c s = .next (s.modLink l fun u => { u with up := true, liveness := some 3000 })) ∧
  (∀ (l : Link) (s : State),
     ((s.link l).sendList.any Frame.isStatus = true →
       exec (.statusDue l) s = .next (s.modLink l fun u => { u with statusMs := 1000 })) ∧
     ((s.link l).sendList.any Frame.isStatus = false → (s.link l).sendList.length < 16 →
       exec (.statusDue l) s = .next (s.modLink l fun u =>
         { u with statusMs := 1000, sendList := u.sendList ++ [.status (s.statusBody l)], sequence := u.sequence + 1 })) ∧
     ((s.link l).sendList.any Frame.isStatus = false → 16 ≤ (s.link l).sendList.length →
       exec (.statusDue l) s = .next (s.modLink l fun u =>
         { u with statusMs := 1000, sendLoss := min 65535 (u.sendLoss + 1), sequence := u.sequence + 1 }))) ∧
  (∀ (l : Link) (s : State) (f : Frame) (rest : List Frame),
     ((s.link l).sendList = f :: rest →
       exec (.frameSent l) s = .next (s.modLink l fun u => { u with sending := some f, sendList := rest })) ∧
     ((s.link l).sendList = [] → exec (.frameSent l) s = .next (s.modLink l fun u => { u with sending := none }))) ∧
  (∀ (s : State) (n : Notice) (ns : List Notice),
     (s.mgmt.notices = n :: ns → (s.link .desk).up = true → (s.link .desk).sendList = [] →
       exec .noticeTaken s = .next
         (({ s with mgmt := { s.mgmt with notices := ns, lost := false } } : State).modLink .desk
           fun u => { u with sendList := [.notice n s.mgmt.lost] })) ∧
     (s.mgmt.notices = [] ∨ (s.link .desk).up = false ∨ (s.link .desk).sendList ≠ [] → exec .noticeTaken s = .next s))

/-! ### Calls from panels, handsets and the console -/

/-- CALL from a panel whose entrance has no call, with a record FREE: the lowest FREE record is taken with the present
stamp, and the call is judged (R1, R2, R11 to R13). It is refused CLASS-OFF, FLOOR, NO-SUCH, LINE-FAULT, PRIVATE or
BUSY, with PROGRESS ENDED and a CALL-END notice of that cause; forwards at once when checks 7 or 8 fail and its class
may; rings over one slot; waits for one, or takes a victim's when its class may pre-empt; or fails NO-PATH (R14, R15,
R17 to R19, R53, R66 to R69). -/
def Obligations.PanelCallTakesRecordAndRings : Prop :=
  ∀ (e : Entrance) (code : BitVec 16) (c : CallId) (s : State),
    s.supply.mode.isSome = true → s.originCall (.entrance e) = none → s.freeRecord = some c → CallsInOrder s →
    NodesFew s →
    let s1 := s.frameIn (.entrance e)
    let x := s.newCall .visitor (.entrance e) (.code code)
    let d := s1.takeRecord c x
    Completes (.call e code) s fun t => Steady d t ∧ Judges x code s1 (Admits c x s1 d t)

/-- CALL-DESK from a panel whose entrance has no call, KEY DESK from a lifted handset and KEY URGENT from one on or off
hook, without a call, with a record FREE: a record is taken, and the call waits in the desk queue, offered to the
console, when the desk is available, its queue has room and the class may wait; otherwise it is refused CLASS-OFF,
FLOOR, DESK-CLOSED or DESK-BUSY, with PROGRESS ENDED to a panel or TONE BUSY to a lifted handset, and a CALL-END notice
of that cause, and an URGENT call so refused raises URGENT-UNANSWERED (R8, R9, R14, R16, R18, R28). -/
def Obligations.DeskOriginationsQueueOrAreRefused : Prop :=
  (∀ (e : Entrance) (c : CallId) (s : State),
     s.supply.mode.isSome = true → s.originCall (.entrance e) = none → s.freeRecord = some c → s.arb.due = [] →
     let s1 := s.frameIn (.entrance e)
     let x := s.newCall .panelDesk (.entrance e) .desk
     let d := s1.takeRecord c x
     Completes (.callDesk e) s fun t => Steady d t ∧ JudgesDesk x s1 (Admits c x s1 d t)) ∧
  (∀ (h : Handset) (c : CallId) (s : State),
     (s.risers[h.riser]).use = .regularPoll h.node ∨ (s.risers[h.riser]).use = .attentionPoll h.node →
     s.presenceOf h ≠ .absent → s.supply.mode.isSome = true → s.originCall (.handset h) = none →
     s.freeRecord = some c → s.arb.due = [] →
     let s1 := (s.endUse h.riser).nodeReplied h
     ∀ (m : Instr) (cls : CallClass),
       (m = .keyDesk h.riser h.node ∧ cls = .deskIn ∧ s.lineState h = .offhook) ∨
       (m = .keyUrgent h.riser h.node ∧ cls = .urgent ∧ (s.lineState h = .offhook ∨ s.lineState h = .idle)) →
       let x := s1.newCall cls (.handset h) .desk
       let d := s1.takeRecord c x
       Completes m s fun t => Steady d t ∧ JudgesDesk x s1 (Admits c x s1 d t) ∧
         (cls = .urgent → t.call? c = none → t.mgmt.conditions.latched .urgentUnanswered = true))

/-- DIAL from a lifted handset without a call takes a record, and the call is judged: refused for a code of its own or
of no apartment and for the other causes of checks 3 to 8, with TONE BUSY and a CALL-END notice; ringing over one slot
on the caller's own riser or one on each of two; waiting for the slot that is short, or taking a victim's when the class
may pre-empt and one riser is needed; or failing NO-PATH (R8, R14, R15, R17 to R19, R53, R66 to R69). -/
def Obligations.DialTakesRecordAndRings : Prop :=
  ∀ (h : Handset) (code : BitVec 16) (c : CallId) (s : State),
    (s.risers[h.riser]).use = .regularPoll h.node ∨ (s.risers[h.riser]).use = .attentionPoll h.node →
    s.presenceOf h ≠ .absent → s.lineState h = .offhook → s.supply.mode.isSome = true →
    s.originCall (.handset h) = none → s.freeRecord = some c → CallsInOrder s → NodesFew s →
    let s1 := (s.endUse h.riser).nodeReplied h
    let x := s1.newCall .neighbour (.handset h) (.code code)
    let d := s1.takeRecord c x
    Completes (.dial h.riser h.node code) s fun t => Steady d t ∧ Judges x code s1 (Admits c x s1 d t)

/-- Originations that take no record (R8, R9, R12). A CALL or CALL-DESK from an entrance that has a live call is
refused BUSY, and one that finds no record FREE TABLE-FULL, by PROGRESS ENDED with the cause. DIAL and KEY DESK from a
lifted handset, and KEY URGENT from one on or off hook, are turned away in the same two cases by TONE BUSY. DIAL and
KEY DESK from a handset that is not OFFHOOK, and KEY URGENT from a CONNECTED one, are ignored. No stamp advances and
no notice follows. -/
def Obligations.OriginationsTurnedAway : Prop :=
  (∀ (e : Entrance) (code : BitVec 16) (s : State) (m : Instr),
     m = .call e code ∨ m = .callDesk e → s.supply.mode.isSome = true → s.arb.due = [] →
     (s.originCall (.entrance e) ≠ none →
       Completes m s (Undisturbed ((s.frameIn (.entrance e)).tellEntrance e (.ended .busy)))) ∧
     (s.originCall (.entrance e) = none → s.freeRecord = none →
       Completes m s (Undisturbed ((s.frameIn (.entrance e)).tellEntrance e (.ended .tableFull))))) ∧
  (∀ (h : Handset) (code : BitVec 16) (s : State),
     (s.risers[h.riser]).use = .regularPoll h.node ∨ (s.risers[h.riser]).use = .attentionPoll h.node →
     s.presenceOf h ≠ .absent → s.arb.due = [] →
     let s1 := (s.endUse h.riser).nodeReplied h
     let away := fun m : Instr => Completes m s fun t => Undisturbed s1 t ∧
       (t.risers[h.riser]).indications = ((s1.tone h .busy).risers[h.riser]).indications
     (s.lineState h ≠ .offhook →
       Completes (.dial h.riser h.node code) s (Undisturbed s1) ∧
       Completes (.keyDesk h.riser h.node) s (Undisturbed s1)) ∧
     (s.lineState h = .connected → Completes (.keyUrgent h.riser h.node) s (Undisturbed s1)) ∧
     (s.supply.mode.isSome = true → s.originCall (.handset h) ≠ none ∨ s.freeRecord = none →
       (s.lineState h = .offhook → away (.dial h.riser h.node code) ∧ away (.keyDesk h.riser h.node)) ∧
       (s.lineState h = .offhook ∨ s.lineState h = .idle → away (.keyUrgent h.riser h.node))))

/-- DESK-CALL is refused DESK-CLOSED, LINES-FULL or TABLE-FULL before any record is taken. Otherwise it takes the free
line, putting the other line on HELD when it is ACTIVE, and a record, and the call is judged: a refusal frees the line
with PROGRESS ENDED; the call rings over one slot, waits for one, takes a victim's when its class may pre-empt, or
fails NO-PATH (R14, R15, R17 to R19, R53, R66 to R69, R93, R96, R104). That before the first supply mode an open
desk's DESK-CALL only keeps the link alive is the model's choice (notes/assumptions/9.md). -/
def Obligations.DeskCallTakesLineAndRings : Prop :=
  ∀ (code : BitVec 16) (s : State),
    let s1 := s.frameIn .desk
    (s.desk.isOpen = false → exec (.deskCall code) s = .next (s1.refuse 0x10 .deskClosed)) ∧
    (s.desk.isOpen = true → s.supply.mode = none → exec (.deskCall code) s = .next s1) ∧
    (s.desk.isOpen = true → s.supply.mode ≠ none → s.desk.freeLine = none →
      exec (.deskCall code) s = .next (s1.refuse 0x10 .linesFull)) ∧
    ∀ l : LineNo, s.desk.isOpen = true → s.supply.mode ≠ none → s.desk.freeLine = some l →
      (s.freeRecord = none → exec (.deskCall code) s = .next (s1.refuse 0x10 .tableFull)) ∧
      ∀ c : CallId, s.freeRecord = some c → CallsInOrder s → NodesFew s →
        let x := s.newCall .deskOut (.line l) (.code code)
        let s2 := s1.takeLine l c
        let d := s2.takeRecord c x
        Completes (.deskCall code) s fun t => Steady d t ∧ Judges x code s2 (Admits c x s2 d t) ∧
          (t.call? c = none → t.desk.lines[l] = .free) ∧ (t.call? c ≠ none → t.desk.lines[l] = .active c) ∧
          ∀ v : CallId, s.desk.lines[otherLine l] = .active v → x.params.preempt = false →
            t.desk.lines[otherLine l] = .held v ∧
            ∀ k ∈ t.arb.cross, k.a ≠ .line (otherLine l) ∧ k.b ≠ .line (otherLine l)

/-! ### The ends of calls -/

/-- CANCEL ends its entrance's call, CANCELLED before it is answered and COMPLETED from TALK or HELD; with no live
call, or one in ENDING, it only keeps the link alive (R22, R143). DESK-END ends the call of its line, and is refused
BAD-LINE for a FREE line and for a number that names none (R107). CALL-CLEAR from an allowed source ends the live call
it names CLEARED and is answered OK; a FREE record and a call in ENDING are answered IGNORED, and a number that names
no record BAD-INDEX (R26, R178). Each CONNECTED party that can be reached is sent CLEAR (R27). That CALL-CLEAR's reply
stands behind the frames of the end it orders is the model's choice (notes/assumptions/44.md). -/
def Obligations.OrderedEndsOfCalls : Prop :=
  (∀ (e : Entrance) (s : State), s.arb.due = [] →
     (s.originCall (.entrance e) = none → exec (.cancel e) s = .next (s.frameIn (.entrance e))) ∧
     ∀ (c : CallId) (x : Call), s.originCall (.entrance e) = some c → s.call? c = some x →
       (x.state = .ending → Completes (.cancel e) s (Undisturbed (s.frameIn (.entrance e)))) ∧
       (x.state ≠ .ending →
         Completes (.cancel e) s fun t =>
           Ends c (if x.state = .talk ∨ x.state = .held then .completed else .cancelled) (s.frameIn (.entrance e)) t ∧
             Clears c (s.frameIn (.entrance e)) t)) ∧
  (∀ (n : Byte) (s : State), s.arb.due = [] →
     (n ≠ 1 → n ≠ 2 → exec (.deskEnd n) s = .next ((s.frameIn .desk).refuse 0x14 .badLine)) ∧
     ∀ l : LineNo, n.toNat = l.val + 1 →
       (s.desk.lines[l] = .free → exec (.deskEnd n) s = .next ((s.frameIn .desk).refuse 0x14 .badLine)) ∧
       ∀ (c : CallId) (x : Call), s.desk.lines[l] = .active c ∨ s.desk.lines[l] = .held c → s.call? c = some x →
         x.state ≠ .ending →
         Completes (.deskEnd n) s fun t =>
           Ends c (if x.state = .talk ∨ x.state = .held then .completed else .cancelled) (s.frameIn .desk) t ∧
             Clears c (s.frameIn .desk) t) ∧
  (∀ (src : Link) (tag b : Byte) (s : State), s.sourceAllowed src = true → s.arb.due = [] →
     let s1 := s.frameIn src
     (24 ≤ b.toNat → exec (.callClear src tag b) s = .next (s1.reply src tag 0x09 { code := .badIndex })) ∧
     ∀ c : CallId, b.toNat = c.val →
       (s.call? c = none → exec (.callClear src tag b) s = .next (s1.reply src tag 0x09 { code := .ignored })) ∧
       ∀ x : Call, s.call? c = some x →
         (x.state = .ending → exec (.callClear src tag b) s = .next (s1.reply src tag 0x09 { code := .ignored })) ∧
         (x.state ≠ .ending →
           ∃ u : State, (Ends c .cleared s1 u ∧ Clears c s1 u) ∧
             exec (.callClear src tag b) s = .next (u.reply src tag 0x09 { code := .ok })))

/-- HOOK-ON: a lifted handset goes IDLE and ends the call it is the origin of; a CONNECTED one ends its call
COMPLETED, each CONNECTED party that can be reached being sent CLEAR; on hook or ringing it is ignored. The reply
clears the node's missed count and brings a LOST node back (R6, R120). -/
def Obligations.HookOnEndsItsCall : Prop :=
  ∀ (h : Handset) (s : State),
    (s.risers[h.riser]).use = .regularPoll h.node ∨ (s.risers[h.riser]).use = .attentionPoll h.node →
    s.presenceOf h ≠ .absent → s.arb.due = [] →
    let s1 := (s.endUse h.riser).nodeReplied h
    (s.lineState h = .idle ∨ s.lineState h = .ringing →
      Completes (.hookOn h.riser h.node) s (Undisturbed s1)) ∧
    (s.lineState h = .offhook →
      (s.originCall (.handset h) = none →
        Completes (.hookOn h.riser h.node) s (Undisturbed (s1.setLine h .idle))) ∧
      ∀ (c : CallId) (x : Call), s.originCall (.handset h) = some c → s.call? c = some x →
        (x.state = .ending →
          Completes (.hookOn h.riser h.node) s (Undisturbed (s1.setLine h .idle))) ∧
        (x.state ≠ .ending →
        Completes (.hookOn h.riser h.node) s
          (Ends c (if x.state = .talk ∨ x.state = .held then .completed else .cancelled) (s1.setLine h .idle)))) ∧
    (s.lineState h = .connected → ∀ (c : CallId) (x : Call),
      s.findCall (fun y => y.connected && y.hasParty h) = some c → s.call? c = some x →
      Completes (.hookOn h.riser h.node) s fun t => Ends c .completed s1 t ∧ Clears c s1 t)

/-- The limits of calls: a call whose talk elapsed reaches its limit ends TIME-LIMIT, one in a riser wait list whose
queue limit runs out ends NO-PATH, leaving its list and losing its reservation, one in the desk queue DESK-BUSY; the
same event finding the call in another state or in the other kind of wait, or its record FREE, has no effect (R21,
R59, R70, R99). TALK_WARNING: with a talk limit of at least 20 s a call in TALK or HELD is warned, its talk elapsed
standing 10 s below the limit: its entrance and its console line are told, and TONE WARN joins the queue of each
handset party that can be reached; a shorter limit, and another state, give no warning (R21). That each is taken as
its limit reached, whatever the model's count, is the model's reading (notes/assumptions/2.md). -/
def Obligations.TalkAndQueueLimits : Prop :=
  (∀ (c : CallId) (s : State), s.arb.due = [] →
     (s.call? c = none →
       exec (.talkLimit c) s = .next s ∧ exec (.queueLimit c) s = .next s ∧ exec (.deskQueueLimit c) s = .next s) ∧
     ∀ x : Call, s.call? c = some x →
       (x.state = .talk ∨ x.state = .held →
         let d := s.modCall c fun y => { y with talkMs := some (1000 * x.params.talk) }
         Completes (.talkLimit c) s fun t => Ends c .timeLimit d t ∧ Clears c d t) ∧
       (x.state ≠ .talk → x.state ≠ .held → exec (.talkLimit c) s = .next s) ∧
       (∀ r : Riser, x.waitKind = some (.riser r) →
         exec (.deskQueueLimit c) s = .next s ∧
         (x.state = .waiting → Completes (.queueLimit c) s fun t => Ends c .noPath s t ∧
           (x.parties = [] → c ∉ (t.arb.risers[r]).wait ∧
             ∀ (q : Riser) (k : Slot), ((t.arb.risers[q]).cells[k]).reserved ≠ some c))) ∧
       (x.waitKind = some .desk →
         exec (.queueLimit c) s = .next s ∧
         (x.state = .waiting → Completes (.deskQueueLimit c) s (Ends c .deskBusy s))) ∧
       (x.waitKind = none → exec (.queueLimit c) s = .next s ∧ exec (.deskQueueLimit c) s = .next s)) ∧
  (∀ (c : CallId) (s : State), s.arb.due = [] →
     (s.call? c = none → exec (.talkWarning c) s = .next s) ∧
     ∀ x : Call, s.call? c = some x →
       ((x.state = .talk ∨ x.state = .held) → 20 ≤ x.params.talk →
         let d := s.modCall c fun y => { y with talkMs := some (1000 * (x.params.talk - 10)) }
         let warned := fun d : State => Completes (.talkWarning c) s fun t => Undisturbed d t ∧
           ∀ h ∈ x.parties, s.reachable h = true → (s.risers[h.riser]).indications.length ≤ 22 →
             { node := h.node, content := .tone .warn } ∈ (t.risers[h.riser]).indications
         (∀ e : Entrance, x.origin = .entrance e → warned ((d.tellEntrance e .warn).tellLine? x.line .warn)) ∧
         (∀ l : LineNo, x.origin = .line l → warned (d.tellLine l .warn)) ∧
         ∀ h : Handset, x.origin = .handset h → warned (d.tellLine? x.line .warn)) ∧
       (x.params.talk < 20 ∨ x.state ≠ .talk ∧ x.state ≠ .held → exec (.talkWarning c) s = .next s))

/-! ### Handset events -/

/-- HOOK-OFF: an IDLE handset goes OFFHOOK, with TONE BUSY when another handset of its apartment is CONNECTED; a
RINGING one answers its call, which enters TALK (HELD when its line is HELD) with the answer latency captured, the
other members on hook again and itself CONNECTED and sent SLOT; an entrance origin's audio lane is joined to the slot;
otherwise it is ignored (R5, R20, R72). -/
def Obligations.HookOffLiftsOrAnswers : Prop :=
  ∀ (h : Handset) (s : State),
    (s.risers[h.riser]).use = .regularPoll h.node ∨ (s.risers[h.riser]).use = .attentionPoll h.node →
    s.presenceOf h ≠ .absent → s.arb.due = [] →
    let s1 := (s.endUse h.riser).nodeReplied h
    (s.lineState h = .offhook ∨ s.lineState h = .connected →
      Completes (.hookOff h.riser h.node) s (Undisturbed s1)) ∧
    (s.lineState h = .idle → Completes (.hookOff h.riser h.node) s fun t => Undisturbed (s1.setLine h .offhook) t ∧
      (t.risers[h.riser]).indications =
        ((if s.neighbourConnected h then s1.tone h .busy else s1).risers[h.riser]).indications) ∧
    (s.lineState h = .ringing → ∀ (c : CallId) (x : Call),
      s.findCall (fun y => y.ringSet.any fun m => m.handset == h) = some c → s.call? c = some x →
      Completes (.hookOff h.riser h.node) s fun t => Steady s1 t ∧ t.lineState h = .connected ∧
        (∀ m ∈ x.ringSet, m.handset ≠ h → x.origin ≠ .handset m.handset → t.lineState m.handset = .idle) ∧
        (∃ y, t.call? c = some y ∧ y.state = s.talkState x ∧ y.answering = some h ∧ y.ringSet = [] ∧
          y.talkMs = some 0 ∧ y.latency = some (min 65535 (x.offerMs.getD 0 / 100)) ∧ y.segment = none ∧
          y.slots = x.slots) ∧
        (∀ d : CallId, d ≠ c → t.call? d = s.call? d) ∧
        ∀ k : Slot, x.slotOn h.riser = some k →
          (s.feedOn h.riser = true → Command.slot h.node k ∈ (t.risers[h.riser]).control ∧
            ((∀ o : Handset, x.origin ≠ .handset o) →
              (t.risers[h.riser]).control = (s.risers[h.riser]).control ++ [.slot h.node k])) ∧
          ∀ e : Entrance, x.origin = .entrance e → ((s.arb.risers[h.riser]).cells[k]).holder = some c →
            s.arb.cross.length < 12 → { a := .lane e, b := .slot h.riser k, call := c } ∈ t.arb.cross)

/-- KEY DOOR from a CONNECTED handset whose call comes from an entrance: the release is accepted in IDLE, with the
call marked, and ignored and counted otherwise; in every other case nothing but a tone follows (R7, R146, R149). KEY
PRIVACY on or off hook toggles the privacy flag of the directory entry that lists the handset; without such an entry,
and RINGING or CONNECTED, it is ignored (R10). -/
def Obligations.KeysOfLiftedHandsets : Prop :=
  (∀ (h : Handset) (s : State),
     (s.risers[h.riser]).use = .regularPoll h.node ∨ (s.risers[h.riser]).use = .attentionPoll h.node →
     s.presenceOf h ≠ .absent → s.arb.due = [] →
     let s1 := (s.endUse h.riser).nodeReplied h
     (s.lineState h ≠ .connected → Completes (.keyDoor h.riser h.node) s (Undisturbed s1)) ∧
     (s.lineState h = .connected → ∀ (c : CallId) (x : Call),
       s.findCall (fun y => y.connected && y.hasParty h) = some c → s.call? c = some x →
       (∀ e : Entrance, x.origin = .entrance e →
         ((s.doors[e]).run = none →
           Completes (.keyDoor h.riser h.node) s
             (Undisturbed (((s1.modDoor e fun d => { d with run := some d.entry.newRun }).modCall c
               fun y => { y with doorReleased := true }).tellEntrance e .door))) ∧
         ((s.doors[e]).run ≠ none →
           Completes (.keyDoor h.riser h.node) s
             (Undisturbed (s1.modDoor e fun d => { d with ignored := min 65535 (d.ignored + 1) })))) ∧
       ((∀ e : Entrance, x.origin ≠ .entrance e) → Completes (.keyDoor h.riser h.node) s (Undisturbed s1)))) ∧
  (∀ (h : Handset) (s : State),
     (s.risers[h.riser]).use = .regularPoll h.node ∨ (s.risers[h.riser]).use = .attentionPoll h.node →
     s.presenceOf h ≠ .absent → s.arb.due = [] →
     let s1 := (s.endUse h.riser).nodeReplied h
     (s.lineState h = .ringing ∨ s.lineState h = .connected ∨ s.entryListing h = none →
       Completes (.keyPrivacy h.riser h.node) s (Undisturbed s1)) ∧
     (s.lineState h = .idle ∨ s.lineState h = .offhook → ∀ (i : DirIndex) (a : Apartment),
       s.entryListing h = some i → s.dir.entries[i] = some a →
       Completes (.keyPrivacy h.riser h.node) s
         (Undisturbed (s1.putEntry i (some { a with hasPrivacy := !a.hasPrivacy })))))

/-! ### The concierge desk -/

/-- DESK-ANSWER is refused NO-SUCH for a byte that names no record, then DESK-CLOSED, then NO-CALL, then LINES-FULL
(R100). DESK-ANSWER takes the call it names, or the best of the queue, onto the free line, the other line going on
HELD when it is ACTIVE: a call from an entrance enters TALK; one from a handset enters TALK when its claim is granted a
slot on its riser, waits with its claim at level 7 when the riser is short, or ends NO-PATH, its line FREE, when the
riser's list holds eight calls, its queue limit is 0 or the riser's feed is off (R51, R53, R54, R58, R96, R100 to R103).
A claim that may pre-empt is stated by PreemptingClaimTakesVictimSlot. -/
def Obligations.DeskAnswerJudged : Prop :=
  (∀ (b : Byte) (s : State),
     let s1 := s.frameIn .desk
     (24 ≤ b.toNat → b ≠ 0xFF → exec (.deskAnswer b) s = .next (s1.refuse 0x11 .noSuch)) ∧
     ∀ named : Option CallId, namedCall b = some named →
       (s.desk.isOpen = false → exec (.deskAnswer b) s = .next (s1.refuse 0x11 .deskClosed)) ∧
       (s.desk.isOpen = true → s.answerTarget named = none → exec (.deskAnswer b) s = .next (s1.refuse 0x11 .noCall)) ∧
       (s.desk.isOpen = true → s.answerTarget named ≠ none → s.desk.freeLine = none →
         exec (.deskAnswer b) s = .next (s1.refuse 0x11 .linesFull))) ∧
  (∀ (b : Byte) (named : Option CallId) (c : CallId) (l : LineNo) (x : Call) (s : State),
     namedCall b = some named → s.desk.isOpen = true → s.answerTarget named = some c → s.desk.freeLine = some l →
     s.call? c = some x → x.state = .waiting → x.claim = false → x.slots = [] → s.arb.due = [] →
     let taken := { x with waitKind := none, waitMs := 0, line := some l, offerMs := none,
                           latency := some (min 65535 (x.offerMs.getD 0 / 100)) }
     let held := fun t : State =>
       (∀ d : CallId, s.desk.lines[otherLine l] = .active d → t.desk.lines[otherLine l] = .held d) ∧
       t.desk.queue = s.desk.queue.filter fun d => d != c
     (∀ e : Entrance, x.origin = .entrance e →
       Completes (.deskAnswer b) s fun t => Steady (s.frameIn .desk) t ∧ held t ∧ t.desk.lines[l] = .active c ∧
         t.call? c = some { taken with state := .talk, talkMs := some 0 }) ∧
     (∀ h : Handset, x.origin = .handset h →
       let r := h.riser
       (∀ k : Slot, s.canGrant r = true → (s.arb.risers[r]).freeSlot = some k →
         Completes (.deskAnswer b) s fun t => Steady (s.frameIn .desk) t ∧ held t ∧ t.desk.lines[l] = .active c ∧
           t.lineState h = .connected ∧ ((t.arb.risers[r]).cells[k]).holder = some c ∧
           t.call? c = some { taken with state := .talk, talkMs := some 0, slots := [(r, k)] }) ∧
       (s.canGrant r = false → s.feedOn r = true → x.params.queue ≠ 0 → (s.arb.risers[r]).wait.length < 8 →
         x.params.preempt = false →
         Completes (.deskAnswer b) s fun t => Steady (s.frameIn .desk) t ∧ held t ∧ t.desk.lines[l] = .active c ∧
           (t.arb.risers[r]).wait = insertByStamp s.stampOf c (s.arb.risers[r]).wait ∧
           t.call? c = some { taken with waitKind := some (.riser r), claim := true } ∧ t.levelOf c = 7) ∧
       (s.canGrant r = false →
         s.feedOn r = false ∨ x.params.queue = 0 ∨ 8 ≤ (s.arb.risers[r]).wait.length →
         x.answering = none → s.lineState h ≠ .connected →
         Completes (.deskAnswer b) s fun t => Steady (s.frameIn .desk) t ∧ held t ∧ t.call? c = none ∧
           t.desk.lines[l] = .free ∧
           (s.mgmt.mask.getLsbD 0 = true → s.mgmt.notices.length < 16 →
             ∃ k : CallEnd, Notice.callEnd k ∈ t.mgmt.notices ∧ k.record = c ∧ k.cause = .noPath ∧ k.origin = x.origin ∧
               k.party = some (.line l)))))

/-- Pre-emption (R66 to R69), shown of a desk claim whose class may pre-empt and whose riser is short with room in its
list. Where calls in ENDING will bring the riser below its usable count, or where no call may be chosen, the claim
waits and nothing is reserved. Otherwise the victim is the holder of lowest base level below the claim's, not in
ENDING and without PREEMPT, the latest granted among equals. With a party whose CLEAR is queued it is in ENDING,
PREEMPTED, its slot reserved for the claim, which waits; a victim without a party completes at once, and the claim is
granted its slot and enters TALK. -/
def Obligations.PreemptingClaimTakesVictimSlot : Prop :=
  (∀ (s : State) (r : Riser) (base : Nat) (order : List Slot) (k : Slot) (v : CallId),
     s.victimIn r base order = some (k, v) ↔
       ∃ i < order.length, order[i]? = some k ∧ ((s.arb.risers[r]).cells[k]).holder = some v ∧
         s.mayBeVictim base v = true ∧
         ∀ (j : Nat) (q : Slot) (w : CallId), j ≠ i → order[j]? = some q →
           ((s.arb.risers[r]).cells[q]).holder = some w → s.mayBeVictim base w = true →
           s.baseOf v ≤ s.baseOf w ∧ (i < j → s.baseOf v < s.baseOf w)) ∧
  (∀ (s : State) (base : Nat) (v : CallId) (y : Call), s.call? v = some y →
     (s.mayBeVictim base v = true ↔ y.state ≠ .ending ∧ y.params.preempt = false ∧ y.params.base < base)) ∧
  (∀ (b : Byte) (named : Option CallId) (c : CallId) (l : LineNo) (x : Call) (h : Handset) (s : State),
     namedCall b = some named → s.desk.isOpen = true → s.answerTarget named = some c → s.desk.freeLine = some l →
     s.call? c = some x → x.state = .waiting → x.claim = false → x.slots = [] → s.arb.due = [] →
     x.origin = .handset h → s.feedOn h.riser = true → s.hasRoom h.riser = false → x.params.queue ≠ 0 →
     (s.arb.risers[h.riser]).wait.length < 8 → x.params.preempt = true →
     let r := h.riser
     let a := s.arb.risers[r]
     let waits := fun t : State => t.desk.lines[l] = .active c ∧ c ∈ (t.arb.risers[r]).wait ∧
       ∃ y, t.call? c = some y ∧ y.state = .waiting ∧ y.waitKind = some (.riser r) ∧ y.claim = true ∧ y.slots = []
     (a.held + 1 - s.arb.usable ≤ s.returning r ∨ s.victimIn r x.params.base a.order = none →
       Completes (.deskAnswer b) s fun t => Steady (s.frameIn .desk) t ∧ waits t ∧ (t.arb.risers[r]).cells = a.cells ∧
         ∀ (d : CallId) (y : Call), s.call? d = some y → d ≠ c → ∃ z, t.call? d = some z ∧ z.cause = y.cause) ∧
     ∀ (k : Slot) (v : CallId) (y : Call), s.returning r < a.held + 1 - s.arb.usable →
       s.victimIn r x.params.base a.order = some (k, v) → s.call? v = some y → y.consoleLine ≠ some l →
       ((∃ g ∈ y.parties, s.lineState g = .connected ∧ s.reachable g = true ∧ ∀ m ∈ y.ringSet, m.handset ≠ g) →
         Completes (.deskAnswer b) s fun t => Steady (s.frameIn .desk) t ∧ waits t ∧
           (t.arb.risers[r]).cells[k] = { holder := some v, reserved := some c } ∧
           ∃ z, t.call? v = some z ∧ z.state = .ending ∧ z.cause = some .preempted) ∧
       (y.parties = [] → y.slots = [(r, k)] → a.held ≤ s.arb.usable →
         (∀ q : Slot, (a.cells[q]).holder = none → (a.cells[q]).reserved = none) →
         Completes (.deskAnswer b) s fun t => Steady (s.frameIn .desk) t ∧ t.call? v = none ∧
           t.desk.lines[l] = .active c ∧ t.lineState h = .connected ∧ c ∉ (t.arb.risers[r]).wait ∧
           (t.arb.risers[r]).cells[k] = { holder := some c, reserved := none } ∧
           ∃ z, t.call? c = some z ∧ z.state = .talk ∧ z.claim = false ∧ z.waitKind = none ∧ z.slots = [(r, k)]))

/-- DESK-HOLD puts an ACTIVE line on HELD: its console connection is broken and its call in TALK goes to HELD. A line
that is not ACTIVE, and a number that names none, are refused BAD-LINE; the other line stays as it is (R97, R105). -/
def Obligations.DeskHoldBreaksConnection : Prop :=
  ∀ (n : Byte) (s : State),
    let s1 := s.frameIn .desk
    (n ≠ 1 → n ≠ 2 → exec (.deskHold n) s = .next (s1.refuse 0x12 .badLine)) ∧
    ∀ l : LineNo, n.toNat = l.val + 1 →
      ((s.desk.lines[l]).isActive = false → exec (.deskHold n) s = .next (s1.refuse 0x12 .badLine)) ∧
      ∀ c : CallId, s.desk.lines[l] = .active c →
        exec (.deskHold n) s = .next
          (((s1.setConsole l (.held c)).setCross
            (s.arb.cross.filter fun k => k.a != .line l && k.b != .line l)).modCall c
            fun x => if x.state = .talk then { x with state := .held } else x)

/-- DESK-RESUME makes a HELD line ACTIVE, its call in HELD going back to TALK with the console connection made again, to
the entrance's audio lane or the slot of the call's handset, and puts the other line on HELD when it was ACTIVE, its
connection broken. A line that is not HELD, and a number that names none, are refused BAD-LINE (R72, R97, R106). -/
def Obligations.DeskResumeRemakesConnection : Prop :=
  ∀ (n : Byte) (s : State),
    let s1 := s.frameIn .desk
    (n ≠ 1 → n ≠ 2 → exec (.deskResume n) s = .next (s1.refuse 0x13 .badLine)) ∧
    ∀ l : LineNo, n.toNat = l.val + 1 →
      (s.desk.lines[l] = .free ∨ (s.desk.lines[l]).isActive = true →
        exec (.deskResume n) s = .next (s1.refuse 0x13 .badLine)) ∧
      ∀ c : CallId, s.desk.lines[l] = .held c →
        (∀ d : CallId, s.desk.lines[otherLine l] = .active d → d ≠ c) →
        Completes (.deskResume n) s fun t => Steady s1 t ∧ t.links = s1.links ∧ t.risers = s.risers ∧
          t.ring = s.ring ∧ t.arb.risers = s.arb.risers ∧ t.ctl.lines = s.ctl.lines ∧ t.desk.queue = s.desk.queue ∧
          t.desk.lines[l] = .active c ∧
          (∀ d : CallId, s.desk.lines[otherLine l] = .active d → t.desk.lines[otherLine l] = .held d ∧
            ∀ k ∈ t.arb.cross, k ∈ s.arb.cross → k.a ≠ .line (otherLine l) ∧ k.b ≠ .line (otherLine l)) ∧
          (∀ x : Call, s.call? c = some x → x.state = .held →
            t.call? c = some { x with state := .talk } ∧
            (s.arb.cross.length < 12 →
              (∀ e : Entrance, x.origin = .entrance e → { a := .line l, b := .lane e, call := c } ∈ t.arb.cross) ∧
              (∀ (h : Handset) (k : Slot), (x.origin = .handset h ∨ x.origin = .line l ∧ x.answering = some h) →
                x.slotOn h.riser = some k → ((s.arb.risers[h.riser]).cells[k]).holder = some c →
                { a := .line l, b := .slot h.riser k, call := c } ∈ t.arb.cross))) ∧
          ∀ (d : CallId) (x : Call), s.desk.lines[otherLine l] = .active d → s.call? d = some x →
            x.state = .talk → t.call? d = some { x with state := .held }

/-- DESK-RELEASE and DOOR-RELEASE: a release is accepted by a door unit in IDLE, which starts its run, in DRIVE at
once when the delay is 0, and ignored and counted otherwise. The desk's marks the call on a line that comes from the
entrance; a byte that names no entrance releases nothing (R108, R146, R149, R178). DELAY ends in DRIVE, DRIVE ends in
IDLE with the grace timer started (none for a grace of 0), and the grace timer runs out (R147); an event that finds
its timer not running has no effect, nor has the expiry of a grace timer that a DRIVE has started again in the same
millisecond (the model's reading and choice, notes/assumptions/2.md and 59.md). The lock stands released in DRIVE alone
(R148). -/
def Obligations.ReleaseRunsFromRequestToIdle : Prop :=
  (∀ (b : Byte) (s : State),
     let s1 := s.frameIn .desk
     (6 ≤ b.toNat → exec (.deskRelease b) s = .next (s1.refuse 0x15 .noSuch)) ∧
     (∀ (src : Link) (tag : Byte), s.sourceAllowed src = true → 6 ≤ b.toNat →
       exec (.doorRelease src tag b) s = .next ((s.frameIn src).reply src tag 0x08 { code := .badIndex })) ∧
     ∀ e : Entrance, b.toNat = e.val →
       let entry := (s.doors[e]).entry
       let run : Run :=
         if entry.delay = 0 then { drive := true, delay := 0, width := entry.width, ms := 100 * entry.width }
         else { drive := false, delay := entry.delay, width := entry.width, ms := 100 * entry.delay }
       let accept := fun t : State => t.modDoor e fun d => { d with run := some run }
       let ignore := fun t : State => t.modDoor e fun d => { d with ignored := min 65535 (d.ignored + 1) }
       ((s.doors[e]).run = none →
         (s.lineCallFrom e = none → exec (.deskRelease b) s = .next (accept s1)) ∧
         (∀ c : CallId, s.lineCallFrom e = some c →
           exec (.deskRelease b) s = .next (((accept s1).modCall c fun x => { x with doorReleased := true }).tellEntrance e
             .door)) ∧
         ∀ (src : Link) (tag : Byte), s.sourceAllowed src = true →
           exec (.doorRelease src tag b) s = .next ((accept (s.frameIn src)).reply src tag 0x08 { code := .ok })) ∧
       ((s.doors[e]).run ≠ none →
         exec (.deskRelease b) s = .next ((ignore s1).refuse 0x15 .ignored) ∧
         ∀ (src : Link) (tag : Byte), s.sourceAllowed src = true →
           exec (.doorRelease src tag b) s = .next ((ignore (s.frameIn src)).reply src tag 0x08 { code := .ignored }))) ∧
  (∀ (e : Entrance) (s : State),
     ((s.doors[e]).run = none → exec (.delayEnd e) s = .next s ∧ exec (.driveEnd e) s = .next s) ∧
     (∀ run : Run, (s.doors[e]).run = some run →
       (run.drive = false →
         exec (.driveEnd e) s = .next s ∧
         exec (.delayEnd e) s = .next (s.modDoor e fun d =>
           { d with run := some { drive := true, delay := run.delay, width := run.width, ms := 100 * run.width } })) ∧
       (run.drive = true →
         exec (.delayEnd e) s = .next s ∧
         exec (.driveEnd e) s = .next (s.modDoor e fun d =>
           { d with run := none, grace := if d.entry.grace = 0 then none else some (100 * d.entry.grace) }))) ∧
     exec (.graceExpiry e) s = .next (s.modDoor e fun d =>
       if 0 < d.entry.grace ∧ d.grace = some (100 * d.entry.grace) then d else { d with grace := none }) ∧
     (s.lockReleased e = true ↔ ∃ run : Run, (s.doors[e]).run = some run ∧ run.drive = true))

/-- DESK-OPEN, as a signal and as a request, sets the desk open flag (R93, R109). DESK-CLOSE, as a signal and as a
request, clears the desk open flag and ends the queued calls DESK-CLOSED; with the flag clear already nothing follows
but the request's reply (R93, R94, R109). That this reply stands behind the frames of the calls that a request ends is
the model's choice (notes/assumptions/44.md). -/
def Obligations.DeskOpensAndCloses : Prop :=
  (∀ s : State,
     exec .deskOpen s = .next { s.frameIn .desk with desk := { s.desk with isOpen := true } } ∧
     ∀ (src : Link) (tag : Byte), s.sourceAllowed src = true →
       exec (.manageDeskOpen src tag) s = .next
         (({ s.frameIn src with desk := { s.desk with isOpen := true } } : State).reply src tag 0x0D { code := .ok })) ∧
  (∀ (s : State) (l : Link) (m : Instr) (answer : State → State),
     (m = .deskClose ∧ l = .desk ∧ answer = id) ∨
     (∃ tag : Byte, m = .manageDeskClose l tag ∧ s.sourceAllowed l = true ∧
       answer = fun t => t.reply l tag 0x0E { code := .ok }) →
     let d : State := { s.frameIn l with desk := { s.desk with isOpen := false } }
     ∃ t : State, exec m s = .next (answer t) ∧
       (s.desk.isOpen = false → s.arb.due = [] → Undisturbed (s.frameIn l) t) ∧
       (s.desk.isOpen = true → Steady d t ∧
         (∀ (c : CallId) (x : Call), c ∈ s.desk.queue → s.call? c = some x → x.state ≠ .ending → x.parties = [] →
           t.call? c = none) ∧
         (NoWaiters s → ∀ (c : CallId) (x y : Call), s.call? c = some x → x.state ≠ .ending → t.call? c = some y →
           (c ∈ s.desk.queue → y.state = .ending ∧ y.cause = some .deskClosed) ∧ (c ∉ s.desk.queue → y = x))))

/-! ### Management requests -/

/-- A request from an entrance whose service window is closed, and a SERVICE-WINDOW from any entrance, is answered
DENIED with its tag alone and has no other effect than keeping its link alive, a SERVICE-WINDOW of the wrong length
included (R174). An allowed request of no known code, or of a length its code does not call for, is answered
BAD-REQUEST; one that names none of the seven tables BAD-TABLE; a RISER-SURVEY of no riser BAD-INDEX; nothing else
follows (checks 1 to 4 of R176). SET-MASK writes the nine enables from the low nine bits; a SERVICE-WINDOW from the
desk opens an entrance's window for up to 60 minutes, CLAMPED above them, or closes it (R174, R175, R184); the expiry,
whenever it is taken, closes its window (the model's reading and choice, notes/assumptions/2.md and 58.md). -/
def Obligations.RequestsTurnedAwayMaskAndWindows : Prop :=
  (∀ (m : Instr) (src : Link) (tag : Byte) (s : State), requester m = some (src, tag) →
     (s.sourceAllowed src = false ∨
       (∃ (e : Entrance) (which minutes : Byte), m = .serviceWindow (.entrance e) tag which minutes) ∨
       ∃ e : Entrance, m = .manageUnknownRequest (.entrance e) tag 0x0C false) →
     exec m s = .next
       ((s.frameIn src).sendFrame src (.reply { tag := tag, code := .denied, request := none, data := [] }))) ∧
  (∀ (src : Link) (tag code table riser : Byte) (i : EntryIndex) (s : State), s.sourceAllowed src = true →
     (src = .desk ∨ code ≠ 0x0C →
       exec (.manageUnknownRequest src tag code false) s = .next
         ((s.frameIn src).reply src tag code { code := .badRequest }) ∧
       exec (.manageUnknownRequest src tag code true) s = .next
         ((s.frameIn src).reply src tag code { code := .badTable })) ∧
     (4 ≤ riser.toNat → exec (.riserSurvey src tag riser) s = .next
       ((s.frameIn src).reply src tag 0x0B { code := .badIndex })) ∧
     (tableKnown table = false → exec (.readEntry src tag table i) s = .next
       ((s.frameIn src).reply src tag 0x01 { code := .badTable }))) ∧
  (∀ (src : Link) (tag b minutes : Byte) (mask : BitVec 16) (s : State),
     (s.sourceAllowed src = true → exec (.setMask src tag mask) s = .next
       (({ s.frameIn src with mgmt := { s.mgmt with mask := mask.truncate 9 } } : State).reply src tag 0x07
         { code := .ok })) ∧
     (6 ≤ b.toNat → exec (.serviceWindow .desk tag b minutes) s = .next
       ((s.frameIn .desk).reply .desk tag 0x0C { code := .badIndex })) ∧
     ∀ e : Entrance,
       exec (.serviceWindowExpiry e) s = .next (s.putWindow e none) ∧
       (b.toNat = e.val →
         (minutes = 0 → exec (.serviceWindow .desk tag b minutes) s = .next
           (((s.frameIn .desk).putWindow e none).reply .desk tag 0x0C { code := .ok })) ∧
         (1 ≤ minutes.toNat → minutes.toNat ≤ 60 → exec (.serviceWindow .desk tag b minutes) s = .next
           (((s.frameIn .desk).putWindow e (some (60000 * minutes.toNat))).reply .desk tag 0x0C { code := .ok })) ∧
         (60 < minutes.toNat → exec (.serviceWindow .desk tag b minutes) s = .next
           (((s.frameIn .desk).putWindow e (some 3600000)).reply .desk tag 0x0C { code := .clamped }))))

/-- READ-ENTRY answers with the entry as it stands, and changes nothing (R47). QUERY-CALLS answers with at most five
live records from its start upwards, eleven bytes each, and QUERY-STATUS with the section it names; neither changes
anything (R179, R180). -/
def Obligations.ReadsAndQueriesAnswer : Prop :=
  (∀ (src : Link) (tag hi lo : Byte) (s : State), s.sourceAllowed src = true →
     let ok := fun data : List Byte => (s.frameIn src).reply src tag 0x01 { code := .ok, data := data }
     let bad := (s.frameIn src).reply src tag 0x01 { code := .badIndex }
     let read := fun table : Byte => exec (.readEntry src tag table { hi := hi, lo := lo }) s
     (∀ k : DirIndex, hi = 0 → lo.toNat = k.val → read 1 = .next (ok (apartmentBytes s.dir.entries[k]))) ∧
     (∀ h : Handset, hi.toNat = h.riser.val → lo.toNat = h.node.val + 1 →
       read 2 = .next (ok [if (s.handsetEntry h).enrolled then 1 else 0, byte (s.handsetEntry h).load])) ∧
     (∀ k : Fin 6, hi = 0 → lo.toNat = k.val → read 3 = .next (ok (s.dir.classes[k]).bytes)) ∧
     (∀ k : Fin 4, hi = 0 → lo.toNat = k.val → read 4 = .next (ok (s.dir.profiles[k]).bytes)) ∧
     (∀ k : Fin 6, hi = 0 → lo.toNat = k.val → read 5 = .next (ok (s.doors[k]).entry.bytes)) ∧
     (∀ k : Fin 4, hi = 0 → lo.toNat = k.val → read 6 = .next (ok (s.feeds[k]).entry.bytes)) ∧
     (hi = 0 → lo = 0 → read 7 = .next (ok s.supply.record.bytes)) ∧
     (hi ≠ 0 → read 1 = .next bad ∧ read 3 = .next bad ∧ read 4 = .next bad ∧ read 5 = .next bad ∧ read 6 = .next bad ∧
       read 7 = .next bad) ∧
     (250 ≤ lo.toNat → read 1 = .next bad) ∧ (6 ≤ lo.toNat → read 3 = .next bad ∧ read 5 = .next bad) ∧
     (4 ≤ lo.toNat → read 4 = .next bad ∧ read 6 = .next bad) ∧ (lo ≠ 0 → read 7 = .next bad) ∧
     (4 ≤ hi.toNat ∨ lo = 0 ∨ 60 < lo.toNat → read 2 = .next bad)) ∧
  (∀ (src : Link) (tag b part which : Byte) (s : State), s.sourceAllowed src = true →
     let s1 := s.frameIn src
     let calls := exec (.queryCalls src tag b) s
     let status := exec (.queryStatus src tag part which) s
     (24 ≤ b.toNat → calls = .next (s1.reply src tag 0x04 { code := .badIndex })) ∧
     (∀ c : CallId, b.toNat = c.val → ∃ data : List Byte, calls = .next (s1.reply src tag 0x04 { code := .ok, data := data }) ∧
       data.length = 2 + 11 * min 5 (s.liveFrom c).length ∧
       (data.head? = some 0xFF ↔ (s.liveFrom c).length ≤ 5)) ∧
     (part = 1 → status = .next (s1.reply src tag 0x05 { code := .ok, data := s1.generalData })) ∧
     (∀ r : Riser, part = 2 → which.toNat = r.val →
       status = .next (s1.reply src tag 0x05 { code := .ok, data := s1.riserData r })) ∧
     (∀ e : Entrance, part = 3 → which.toNat = e.val →
       status = .next (s1.reply src tag 0x05 { code := .ok, data := s1.entranceData e })) ∧
     (part = 4 → status = .next (s1.reply src tag 0x05 { code := .ok, data := (s1.link .desk).data })) ∧
     (part = 2 ∧ 4 ≤ which.toNat ∨ part = 3 ∧ 6 ≤ which.toNat →
       status = .next (s1.reply src tag 0x05 { code := .badIndex })) ∧
     (part = 0 ∨ 5 ≤ part.toNat → status = .next (s1.reply src tag 0x05 { code := .badValue })))

/-- CLEAR-CONDITION: an unknown condition is BAD-VALUE and an instance out of range BAD-INDEX; a clear instance stays
clear; a latched one becomes clear, unless its cause persists, when it stays latched with a new CONDITION notice and
the reply is BUSY (R182). -/
def Obligations.ClearConditionJudgesCause : Prop :=
  ∀ (src : Link) (tag cond inst : Byte) (s : State), s.sourceAllowed src = true →
    let s1 := s.frameIn src
    let m := Instr.clearCondition src tag cond inst
    let persists := fun k : Condition =>
      (∃ e : Entrance, k = .doorHeld e ∧ (s.doors[e]).door = .openHeld) ∨
      (∃ e : Entrance, k = .doorForced e ∧ (s.doors[e]).door = .openForced ∧ (s.doors[e]).entry.forced = true) ∨
      (∃ r : Riser, k = .feedHeld r ∧ (s.feeds[r]).state = .offHeld .fault) ∨
      k = .supplyDepleted ∧ s.supply.mode = some .depleted ∨ k = .storeInvalid ∧ s.store.valid = false
    (cond = 0 ∨ 7 ≤ cond.toNat → exec m s = .next (s1.reply src tag 0x06 { code := .badValue })) ∧
    ((cond = 1 ∨ cond = 2) ∧ 6 ≤ inst.toNat ∨ cond = 3 ∧ 4 ≤ inst.toNat →
      exec m s = .next (s1.reply src tag 0x06 { code := .badIndex })) ∧
    ∀ k : Condition, cond.toNat = k.code → (4 ≤ k.code ∨ inst.toNat = k.instanceCode) →
      (s.mgmt.conditions.latched k = false → exec m s = .next (s1.reply src tag 0x06 { code := .ok })) ∧
      (s.mgmt.conditions.latched k = true → ¬ persists k →
        exec m s = .next ((s1.setCondition false k).reply src tag 0x06 { code := .ok })) ∧
      (s.mgmt.conditions.latched k = true → persists k → exec m s = .next
        ((s1.offer (.condition k)).reply src tag 0x06 { code := .busy }))

/-! ### The seven tables -/

/-- A directory write is refused BAD-VALUE for any value R35 does not allow, then DUPLICATE, then IN-USE, and
otherwise writes the whole entry as the request spells it; a clear is refused IN-USE for a used entry of a live call,
and otherwise leaves the entry unused (R35 to R38). -/
def Obligations.DirectoryTableWritten : Prop :=
  ∀ (src : Link) (tag : Byte) (i : EntryIndex) (w : DirectoryWrite) (s : State),
    let named := decide (i.hi = 0 ∧ i.lo.toNat < 250)
    let s1 := s.frameIn src
    let inUse := fun k : DirIndex => ∃ (c : CallId) (x : Call), s.call? c = some x ∧
      (x.target = .apartment k ∨ x.original = some k)
    TableGate (.writeEntryDirectory src tag i w) src tag 0x02 named s (∀ k : DirIndex, i.lo.toNat = k.val →
      let bad := w.used ≠ 1 ∨ w.code.toNat < 1 ∨ 9999 < w.code.toNat ∨ 4 ≤ w.riser.toNat ∨
        w.nodes.length < 1 ∨ 4 < w.nodes.length ∨ ¬ w.nodes.Nodup ∨ (∃ n ∈ w.nodes, n.toNat < 1 ∨ 60 < n.toNat) ∨
        2 < w.steps.length ∨ ¬ w.steps.Nodup ∨ (∃ b ∈ w.steps, 250 ≤ b.toNat ∧ b ≠ 0xFF ∨ b.toNat = k.val) ∨
        1 < w.privacy.toNat ∨ 16 < w.label.length ∨ ∃ b ∈ w.label, b.toNat < 0x20 ∨ 0x7E < b.toNat
      (bad → exec (.writeEntryDirectory src tag i w) s = .next (s1.reply src tag 0x02 { code := .badValue })) ∧
      (¬ bad → ∃ a : Apartment,
        (a.code = w.code ∧ a.riser.val = w.riser.toNat ∧ a.nodes.map addressOf = w.nodes.map BitVec.toNat ∧
          a.chain.map stepNumber = w.steps.map BitVec.toNat ∧ a.hasPrivacy = decide (w.privacy = 1) ∧
          a.label = w.label) ∧
        let clash := ∃ (j : DirIndex) (b : Apartment), j ≠ k ∧ s.dir.entries[j] = some b ∧ ¬ a.apart b
        let moved := inUse k ∧ ∀ b : Apartment, s.dir.entries[k] = some b →
          ¬ (b.code = a.code ∧ b.riser = a.riser ∧ b.nodes = a.nodes)
        (clash → exec (.writeEntryDirectory src tag i w) s = .next (s1.reply src tag 0x02 { code := .duplicate })) ∧
        (¬ clash → moved → exec (.writeEntryDirectory src tag i w) s = .next (s1.reply src tag 0x02 { code := .inUse })) ∧
        (¬ clash → ¬ moved →
          exec (.writeEntryDirectory src tag i w) s = .next
            ((s1.putEntry k (some a)).reply src tag 0x02 { code := .ok })))) ∧
    TableGate (.clearEntryDirectory src tag i) src tag 0x03 named s (∀ k : DirIndex, i.lo.toNat = k.val →
      (s.dir.entries[k] ≠ none → inUse k →
        exec (.clearEntryDirectory src tag i) s = .next (s1.reply src tag 0x03 { code := .inUse })) ∧
      (s.dir.entries[k] = none ∨ ¬ inUse k →
        exec (.clearEntryDirectory src tag i) s = .next ((s1.putEntry k none).reply src tag 0x03 { code := .ok })))

/-- A handset table write or clear: un-enrolling a handset that is not free is refused IN-USE; otherwise the entry is
written, and an address newly enrolled becomes PRESENT or LOST by its riser's feed, one un-enrolled ABSENT (R40, R41,
R114). Stated while the riser runs no survey and no grant event is due. That the reply stands behind the frames of the
calls that un-enrolment completes, and that a message in service stays while one that awaits its repeat goes, are the
model's (notes/assumptions/44.md and 16.md). -/
def Obligations.HandsetTableWritten : Prop :=
  ∀ (src : Link) (tag : Byte) (i : EntryIndex) (w : HandsetWrite) (s : State),
    let named := decide (i.hi.toNat < 4 ∧ 1 ≤ i.lo.toNat ∧ i.lo.toNat ≤ 60)
    let s1 := s.frameIn src
    let taken := fun (m : Instr) (req : Byte) (h : Handset) (x : HandsetEntry) (code : ReplyCode) =>
      ((s.handsetEntry h).enrolled = true → x.enrolled = false → s.isFree h = false →
        exec m s = .next (s1.reply src tag req { code := .inUse })) ∧
      ((s.risers[h.riser]).survey = none → s.arb.due = [] →
        (x.enrolled = (s.handsetEntry h).enrolled →
          ∃ u, exec m s = .next (u.reply src tag req { code := code }) ∧ Undisturbed (s1.putHandset h x) u) ∧
        (x.enrolled = true → (s.handsetEntry h).enrolled = false →
          ∃ u, exec m s = .next (u.reply src tag req { code := code }) ∧
            Undisturbed ((s1.putHandset h x).putNode h (if s.feedOn h.riser then .present else .lost) 0) u) ∧
        (x.enrolled = false → (s.handsetEntry h).enrolled = true → s.isFree h = true →
          ∃ u, exec m s = .next (u.reply src tag req { code := code }) ∧
            Steady ((s1.putHandset h x).putNode h .absent 0) u ∧
            ((s.risers[h.riser]).control = [] → h.node ∉ (u.risers[h.riser]).attention ∧
              ∀ e ∈ (u.risers[h.riser]).indications, e.node = h.node → (s.risers[h.riser]).use = .indication)))
    TableGate (.writeEntryHandset src tag i w) src tag 0x02 named s (
      (1 < w.enrolled.toNat →
        exec (.writeEntryHandset src tag i w) s = .next (s1.reply src tag 0x02 { code := .badValue })) ∧
      ∀ h : Handset, i.hi.toNat = h.riser.val → i.lo.toNat = h.node.val + 1 → w.enrolled.toNat ≤ 1 →
        taken (.writeEntryHandset src tag i w) 0x02 h
          { enrolled := decide (w.enrolled = 1), load := max 5 (min 80 w.load.toNat) }
          (if 5 ≤ w.load.toNat ∧ w.load.toNat ≤ 80 then .ok else .clamped)) ∧
    TableGate (.clearEntryHandset src tag i) src tag 0x03 named s (
      ∀ h : Handset, i.hi.toNat = h.riser.val → i.lo.toNat = h.node.val + 1 →
        taken (.clearEntryHandset src tag i) 0x03 h { enrolled := false, load := 30 } .ok)

/-- A class table or cadence profile write is refused BAD-VALUE for an operand that selects nothing and for a profile
whose on1 is 0 or whose cycle is below 2, and otherwise writes the entry, its times and counts brought into range; a
clear writes the default (R42, R45, R177). A door table write is refused BAD-VALUE for a named value that is neither
of its two, and otherwise writes the entry, its times brought into range; a run, a grace timer and a held timer under
way keep theirs. A clear writes the default (R155). -/
def Obligations.ClassProfileAndDoorTablesWritten : Prop :=
  (∀ (src : Link) (tag : Byte) (i : EntryIndex) (w : ClassWrite) (v : ProfileWrite) (s : State),
     let s1 := s.frameIn src
     TableGate (.writeEntryClass src tag i w) src tag 0x02 (decide (i.hi = 0 ∧ i.lo.toNat < 6)) s
       (∀ k : Fin 6, i.lo.toNat = k.val →
         (7 < w.base.toNat ∨ 4 ≤ w.profile.toNat ∨ 8 ≤ w.flags.toNat →
           exec (.writeEntryClass src tag i w) s = .next (s1.reply src tag 0x02 { code := .badValue })) ∧
         ∀ p : Fin 4, w.base.toNat ≤ 7 → w.profile.toNat = p.val → w.flags.toNat < 8 →
           exec (.writeEntryClass src tag i w) s = .next ((s1.putClass k
             { base := w.base.toNat, aging := min 60 w.aging.toNat, queue := min 120 w.queue.toNat,
               cycles := max 1 (min 30 w.cycles.toNat), talk := max 10 (min 600 w.talk.toNat), profile := p,
               preempt := w.flags.getLsbD 0, hasPrivacy := w.flags.getLsbD 1, forward := w.flags.getLsbD 2 }).reply
             src tag 0x02
             { code := if w.aging.toNat ≤ 60 ∧ w.queue.toNat ≤ 120 ∧ 1 ≤ w.cycles.toNat ∧ w.cycles.toNat ≤ 30 ∧
                 10 ≤ w.talk.toNat ∧ w.talk.toNat ≤ 600 then .ok else .clamped })) ∧
     TableGate (.clearEntryClass src tag i) src tag 0x03 (decide (i.hi = 0 ∧ i.lo.toNat < 6)) s
       (∀ k : Fin 6, i.lo.toNat = k.val → exec (.clearEntryClass src tag i) s = .next
         ((s1.putClass k ClassParams.defaults[k]).reply src tag 0x03 { code := .ok })) ∧
     TableGate (.writeEntryProfile src tag i v) src tag 0x02 (decide (i.hi = 0 ∧ i.lo.toNat < 4)) s
       (∀ k : Fin 4, i.lo.toNat = k.val →
         let p : Profile := { on1 := min 40 v.on1.toNat, off1 := min 40 v.off1.toNat, on2 := min 40 v.on2.toNat,
                              off2 := min 40 v.off2.toNat }
         (p.on1 = 0 ∨ p.on1 + p.off1 + p.on2 + p.off2 < 2 →
           exec (.writeEntryProfile src tag i v) s = .next (s1.reply src tag 0x02 { code := .badValue })) ∧
         (p.on1 ≠ 0 → 2 ≤ p.on1 + p.off1 + p.on2 + p.off2 →
           exec (.writeEntryProfile src tag i v) s = .next ((s1.putProfile k p).reply src tag 0x02
             { code := if v.on1.toNat ≤ 40 ∧ v.off1.toNat ≤ 40 ∧ v.on2.toNat ≤ 40 ∧ v.off2.toNat ≤ 40 then .ok
                       else .clamped }))) ∧
     TableGate (.clearEntryProfile src tag i) src tag 0x03 (decide (i.hi = 0 ∧ i.lo.toNat < 4)) s
       (∀ k : Fin 4, i.lo.toNat = k.val → exec (.clearEntryProfile src tag i) s = .next
         ((s1.putProfile k Profile.defaults[k]).reply src tag 0x03 { code := .ok }))) ∧
  (∀ (src : Link) (tag : Byte) (i : EntryIndex) (w : DoorWrite) (s : State),
     let s1 := s.frameIn src
     TableGate (.writeEntryDoor src tag i w) src tag 0x02 (decide (i.hi = 0 ∧ i.lo.toNat < 6)) s
       (∀ e : Entrance, i.lo.toNat = e.val →
         (1 < w.forced.toNat ∨ 1 < w.polarity.toNat ∨ 1 < w.sense.toNat →
           exec (.writeEntryDoor src tag i w) s = .next (s1.reply src tag 0x02 { code := .badValue })) ∧
         (w.forced.toNat ≤ 1 → w.polarity.toNat ≤ 1 → w.sense.toNat ≤ 1 →
           exec (.writeEntryDoor src tag i w) s = .next
             ((s1.modDoor e fun d => { d with entry :=
               { delay := min 50 w.delay.toNat, width := max 1 (min 100 w.width.toNat), grace := min 100 w.grace.toNat,
                 heldLimit := max 5 (min 600 w.heldLimit.toNat), forced := decide (w.forced = 1),
                 unlockOnDrive := decide (w.polarity = 1), openWhenHigh := decide (w.sense = 1) } }).reply src tag 0x02
               { code := if w.delay.toNat ≤ 50 ∧ 1 ≤ w.width.toNat ∧ w.width.toNat ≤ 100 ∧ w.grace.toNat ≤ 100 ∧
                   5 ≤ w.heldLimit.toNat ∧ w.heldLimit.toNat ≤ 600 then .ok else .clamped }))) ∧
     TableGate (.clearEntryDoor src tag i) src tag 0x03 (decide (i.hi = 0 ∧ i.lo.toNat < 6)) s
       (∀ e : Entrance, i.lo.toNat = e.val → exec (.clearEntryDoor src tag i) s = .next
         ((s1.modDoor e fun d => { d with entry := DoorEntry.default }).reply src tag 0x03 { code := .ok })))

/-- A riser table write or clear: a value that is neither yes nor no is BAD-VALUE; otherwise the entry is written, and
the sounding sum fits the budget that follows. With enabled unchanged the feed stays as it is; a riser that becomes
enabled is switched on; one that is disabled ends in OFF-HELD with hold cause ORDER (R81, R167). That the reply stands
behind the frames of the calls that a disabling write ends is the model's choice (notes/assumptions/44.md). -/
def Obligations.RiserTableWritten : Prop :=
  ∀ (src : Link) (tag : Byte) (i : EntryIndex) (w : RiserWrite) (s : State),
    let s1 := s.frameIn src
    let named := decide (i.hi = 0 ∧ i.lo.toNat < 4)
    let written := fun (m : Instr) (req : Byte) (r : Riser) (x : RiserEntry) (code : ReplyCode) =>
      ∃ u, exec m s = .next (u.reply src tag req { code := code }) ∧ (u.feeds[r]).entry = x ∧
        (∀ q : Riser, q ≠ r → u.feeds[q] = s.feeds[q]) ∧
        (RingSafe s → u.soundSum r ≤ u.beff r) ∧
        (x.enabled = (s.feeds[r]).entry.enabled → Steady (s1.modFeed r fun f => { f with entry := x }) u) ∧
        (x.enabled = true → (s.feeds[r]).entry.enabled = false →
          Steady ((s1.modFeed r fun _ => { entry := x, state := .onNormal, retries := 0, settle := some 100, retry := none,
                                           stable := some 30000 }).offer (.feed r .onNormal 0)) u) ∧
        (x.enabled = false → (s.feeds[r]).entry.enabled = true → (u.feeds[r]).state = .offHeld .order)
    TableGate (.writeEntryRiser src tag i w) src tag 0x02 named s
      (∀ r : Riser, i.lo.toNat = r.val →
        (1 < w.enabled.toNat →
          exec (.writeEntryRiser src tag i w) s = .next (s1.reply src tag 0x02 { code := .badValue })) ∧
        (w.enabled.toNat ≤ 1 →
          written (.writeEntryRiser src tag i w) 0x02 r
            { enabled := decide (w.enabled = 1), budget := max 20 (min 400 w.budget.toNat),
              missed := max 2 (min 10 w.missed.toNat), short := max 200 (min 1500 w.short.toNat),
              sag := max 12000 (min 30000 w.sag.toNat) }
            (if 20 ≤ w.budget.toNat ∧ w.budget.toNat ≤ 400 ∧ 2 ≤ w.missed.toNat ∧ w.missed.toNat ≤ 10 ∧
                200 ≤ w.short.toNat ∧ w.short.toNat ≤ 1500 ∧ 12000 ≤ w.sag.toNat ∧ w.sag.toNat ≤ 30000 then .ok
              else .clamped))) ∧
    TableGate (.clearEntryRiser src tag i) src tag 0x03 named s
      (∀ r : Riser, i.lo.toNat = r.val →
        written (.clearEntryRiser src tag i) 0x03 r
          { enabled := true, budget := 120, missed := 3, short := 900, sag := 20000 } .ok)

/-- A supply record write or clear writes the record, its fields brought into range, and gives the values the present
mode uses to their owners: in RESERVE the ring percent, usable slots, floor and poll pause, in FULL the floor, and
before the first mode and in DEPLETED nothing (R172). That the reply stands behind the frames of calls granted by a
raised slot count is the model's choice (notes/assumptions/44.md). -/
def Obligations.SupplyRecordWritten : Prop :=
  ∀ (src : Link) (tag : Byte) (i : EntryIndex) (w : SupplyWrite) (s : State),
    let s1 := s.frameIn src
    let named := decide (i.hi = 0 ∧ i.lo = 0)
    let written := fun (m : Instr) (req : Byte) (x : SupplyRecord) (code : ReplyCode) =>
      ∃ u, exec m s = .next (u.reply src tag req { code := code }) ∧ u.supply = { s.supply with record := x } ∧
        u.dir = s.dir ∧ u.doors = s.doors ∧ u.feeds = s.feeds ∧ u.store = s.store ∧ u.ctl.stamp = s.ctl.stamp ∧
        (s.supply.mode = some .reserve → u.ring.percent = x.percent ∧ u.arb.usable = x.slots ∧ u.ctl.floor = x.floor ∧
          ∀ r : Riser, (u.risers[r]).pause = x.pause) ∧
        (s.supply.mode = some .full →
          u = { s1 with supply := { s.supply with record := x }, ctl := { s.ctl with floor := x.fullFloor } }) ∧
        (s.supply.mode = some .depleted ∨ s.supply.mode = none → u = { s1 with supply := { s.supply with record := x } })
    TableGate (.writeEntrySupply src tag i w) src tag 0x02 named s
      (written (.writeEntrySupply src tag i w) 0x02
        { fullFloor := min 6 w.fullFloor.toNat, percent := max 25 (min 100 w.percent.toNat),
          slots := max 1 (min 4 w.slots.toNat), floor := min 6 w.floor.toNat, pause := min 500 w.pause.toNat,
          depleted := max 9000 (min 12000 w.depleted.toNat) }
        (if w.fullFloor.toNat ≤ 6 ∧ 25 ≤ w.percent.toNat ∧ w.percent.toNat ≤ 100 ∧ 1 ≤ w.slots.toNat ∧
            w.slots.toNat ≤ 4 ∧ w.floor.toNat ≤ 6 ∧ w.pause.toNat ≤ 500 ∧ 9000 ≤ w.depleted.toNat ∧
            w.depleted.toNat ≤ 12000 then .ok else .clamped)) ∧
    TableGate (.clearEntrySupply src tag i) src tag 0x03 named s
      (written (.clearEntrySupply src tag i) 0x03
        { fullFloor := 0, percent := 50, slots := 2, floor := 1, pause := 100, depleted := 10800 } .ok)

/-! ### Feeds going off and on -/

/-- RISER-FEED: a value that is neither on nor off is BAD-VALUE and a byte that names no riser BAD-INDEX. On is
IGNORED for a riser not enabled, has no effect on a feed already ON, and switches any other on. Off silences an ON
feed with all its riser holds, moves OFF-RETRY to OFF-HELD with a notice and START without one, and leaves OFF-HELD
with another cause as it is: the retry count is kept throughout (R161, R166). Hold cause FAULT, the nodes of a riser in
START, which stay as they are, and the reply behind the frames of the calls that end are the model's readings and choice
(notes/assumptions/12.md, 19.md and 44.md). -/
def Obligations.RiserFeedSwitches : Prop :=
  ∀ (src : Link) (tag b v : Byte) (s : State), s.sourceAllowed src = true →
    let s1 := s.frameIn src
    let m := Instr.riserFeed src tag b v
    let after := fun (d u : State) (code : ReplyCode) =>
      exec m s = .next (u.reply src tag 0x0A { code := code }) ∧ Steady d u
    (4 ≤ b.toNat → exec m s = .next (s1.reply src tag 0x0A { code := .badIndex })) ∧
    ∀ r : Riser, b.toNat = r.val →
      (1 < v.toNat → exec m s = .next (s1.reply src tag 0x0A { code := .badValue })) ∧
      (v = 1 → (s.feeds[r]).entry.enabled = false → exec m s = .next (s1.reply src tag 0x0A { code := .ignored })) ∧
      (v = 1 → (s.feeds[r]).entry.enabled = true → s.feedOn r = true →
        exec m s = .next (s1.reply src tag 0x0A { code := .ok })) ∧
      (v = 1 → (s.feeds[r]).entry.enabled = true → s.feedOn r = false →
        ∃ u : State, after ((s1.modFeed r fun f =>
          { f with state := .onNormal, retries := 0, retry := none, settle := some 100, stable := some 30000 }).offer
            (.feed r .onNormal 0)) u .ok) ∧
      (v = 0 → s.feedOn r = true → ∃ u : State, exec m s = .next (u.reply src tag 0x0A { code := .ok }) ∧
        u.feeds = upd s.feeds r (fun f => { f with state := .offHeld .order, settle := none, stable := none,
                                                   retry := none }) ∧
        (∀ n : Node, (u.risers[r]).presence[n] =
          if (s.risers[r]).presence[n] = .present then .lost else (s.risers[r]).presence[n]) ∧
        u.soundSum r = 0 ∧ (u.risers[r]).use = .silent ∧ (u.risers[r]).survey = none ∧
        u.dir = s.dir ∧ u.doors = s.doors ∧ u.supply = s.supply ∧ u.store = s.store ∧
        ∀ (c : CallId) (x : Call), s.concerned r c = true → s.call? c = some x → x.state ≠ .ending → x.parties = [] →
          u.call? c = none) ∧
      (v = 0 → (s.feeds[r]).state = .offRetry → s.arb.due = [] →
        ∃ u : State, after ((s1.modFeed r fun f =>
          { f with state := .offHeld .order, settle := none, stable := none, retry := none }).offer
            (.feed r (.offHeld .order) (s.feeds[r]).retries)) u .ok) ∧
      (v = 0 → (s.feeds[r]).state = .offHeld .start → s.arb.due = [] →
        ∃ u : State, after (s1.modFeed r fun f => { f with state := .offHeld .order }) u .ok) ∧
      (v = 0 → (s.feeds[r]).state = .offHeld .fault ∨ (s.feeds[r]).state = .offHeld .order → s.arb.due = [] →
        ∃ u : State, after s1 u .ok)

/-- A voltage conversion is filtered, and judged while its feed is ON and has settled: below 6000 mV it is a short,
below the sag threshold the feed goes to ON-SAG, and from ON-SAG it returns at 1000 mV above the threshold, with a
FEED notice for each change (R158, R162, R165). A current conversion is filtered, and its raw value judged while its
feed is ON, settling or not: at the short threshold or above it is a short, which gives the feed up at the fourth
without a stable run between, raising FEED-HELD (R158, R162, R163). A feed's timers run out: the settle timer has the
voltage channel seeded afresh, the retry timer has the feed switched on with its retry count kept, the stable timer
returns the retry count to 0 (R161, R164); an event that finds its timer not running has no effect (the model's reading,
notes/assumptions/2.md). -/
def Obligations.FeedConversionsAndTimers : Prop :=
  (∀ (r : Riser) (c : BitVec 10) (s : State),
     let k := s.meas.voltage[r]
     let code := if k.seed = true then c.toNat else (3 * k.filtered + c.toNat) / 4
     let s1 := s.modVoltage r fun _ => { filtered := code, seed := false }
     let sag := (s.feeds[r]).entry.sag
     let m := Instr.feedVoltageConversion r c
     (s.feedOn r = false ∨ (s.feeds[r]).settle ≠ none → exec m s = .next s1) ∧
     ((s.feeds[r]).settle = none →
       ((s.feeds[r]).state = .onNormal → 6000 ≤ code * 40 → sag ≤ code * 40 → Completes m s (Steady s1)) ∧
       ((s.feeds[r]).state = .onNormal → 6000 ≤ code * 40 → code * 40 < sag →
         Completes m s (Steady ((s1.modFeed r fun f => { f with state := .onSag }).offer
           (.feed r .onSag (s.feeds[r]).retries)))) ∧
       ((s.feeds[r]).state = .onSag → 6000 ≤ code * 40 → code * 40 < sag + 1000 → Completes m s (Steady s1)) ∧
       ((s.feeds[r]).state = .onSag → 6000 ≤ code * 40 → sag + 1000 ≤ code * 40 →
         Completes m s (Steady ((s1.modFeed r fun f => { f with state := .onNormal }).offer
           (.feed r .onNormal (s.feeds[r]).retries)))) ∧
       (s.feedOn r = true → code * 40 < 6000 → Completes m s fun t => t.meas = s1.meas ∧
         t.feeds = upd s.feeds r (fun f =>
           if f.retries < 3 then
             { f with state := .offRetry, retries := f.retries + 1, settle := none, stable := none, retry := some 5000 }
           else { f with state := .offHeld .fault, retries := 4, settle := none, stable := none, retry := none })))) ∧
  (∀ (r : Riser) (c : BitVec 10) (s : State),
     let k := s.meas.current[r]
     let s1 := s.modCurrent r fun _ =>
       { filtered := if k.seed = true then c.toNat else (3 * k.filtered + c.toNat) / 4, seed := false }
     let m := Instr.feedCurrentConversion r c
     (s.feedOn r = false ∨ c.toNat * 2 < (s.feeds[r]).entry.short → exec m s = .next s1) ∧
     (s.feedOn r = true → (s.feeds[r]).entry.short ≤ c.toNat * 2 → Completes m s fun t =>
       t.meas = s1.meas ∧ t.dir = s.dir ∧ t.doors = s.doors ∧ t.supply = s.supply ∧ t.store = s.store ∧
       t.feeds = upd s.feeds r (fun f =>
         if f.retries < 3 then
           { f with state := .offRetry, retries := f.retries + 1, settle := none, stable := none, retry := some 5000 }
         else { f with state := .offHeld .fault, retries := 4, settle := none, stable := none, retry := none }) ∧
       (3 ≤ (s.feeds[r]).retries → t.mgmt.conditions.latched (.feedHeld r) = true) ∧
       (∀ n : Node, (t.risers[r]).presence[n] =
         if (s.risers[r]).presence[n] = .present then .lost else (s.risers[r]).presence[n]) ∧
       t.soundSum r = 0 ∧ (t.risers[r]).use = .silent ∧
       ∀ (d : CallId) (x : Call), s.concerned r d = true → s.call? d = some x → x.state ≠ .ending → x.parties = [] →
         t.call? d = none)) ∧
  (∀ (r : Riser) (s : State),
     ((s.feeds[r]).settle ≠ none → exec (.settleEnd r) s = .next
       ((s.modFeed r fun f => { f with settle := none }).modVoltage r fun k => { k with seed := true })) ∧
     ((s.feeds[r]).settle = none → exec (.settleEnd r) s = .next s) ∧
     ((s.feeds[r]).stable ≠ none → exec (.stableExpiry r) s = .next
       (s.modFeed r fun f => { f with retries := 0, stable := none })) ∧
     ((s.feeds[r]).stable = none → exec (.stableExpiry r) s = .next s) ∧
     ((s.feeds[r]).state = .offRetry → Completes (.retryExpiry r) s fun t =>
       Steady ((s.modFeed r fun f => { f with state := .onNormal, retry := none, settle := some 100,
                                              stable := some 30000 }).offer
         (.feed r .onNormal (s.feeds[r]).retries)) t) ∧
     ((s.feeds[r]).state ≠ .offRetry → exec (.retryExpiry r) s = .next s))

/-! ### Riser buses -/

/-- RISER-SURVEY: BUSY while a survey of the riser runs, which goes on unchanged; with the feed off it is answered OK
and ends at once, with an empty list and the incomplete flag set; otherwise it is answered OK and runs from address 1
with an empty list, and with no address left to probe ends at once, with an empty list and the flag clear; each free
bus then takes its next use (R127). -/
def Obligations.RiserSurveyStartsOrEnds : Prop :=
  ∀ (src : Link) (tag b : Byte) (r : Riser) (s : State), s.sourceAllowed src = true → s.arb.due = [] →
    b.toNat = r.val →
    let s1 := s.frameIn src
    let m := Instr.riserSurvey src tag b
    ((s.risers[r]).survey ≠ none → exec m s = .next (s1.reply src tag 0x0B { code := .busy })) ∧
    ((s.risers[r]).survey = none → s.feedOn r = false →
      exec m s = .next ((s1.offer (.survey r [] true)).reply src tag 0x0B { code := .ok })) ∧
    ((s.risers[r]).survey = none → s.feedOn r = true →
      ((∃ n : Node, (s.risers[r]).presence[n] = .absent) →
        exec m s = .next ((s1.modRiser r fun v => { v with survey := some { next := 0, replied := [] } }).kickAll.reply
          src tag 0x0B { code := .ok })) ∧
      ((∀ n : Node, (s.risers[r]).presence[n] ≠ .absent) →
        exec m s = .next (((s1.offer (.survey r [] false)).kickAll).reply src tag 0x0B { code := .ok })))

/-- SURVEY_PROBE: a probe that draws a valid reply lists its address in ascending order, a failed one counts its fault
alone; the survey runs on while an unenrolled address remains, and ends with its notice otherwise (R113, R128, R129).
Where no probe is under way the event has no effect (the model's reading, notes/assumptions/15.md). -/
def Obligations.SurveyListsItsReplies : Prop :=
  ∀ (r : Riser) (p : ProbeResult) (s : State), s.arb.due = [] →
    ((∀ n : Node, (s.risers[r]).use ≠ .probe n) → exec (.surveyProbe r p) s = .next s) ∧
    ∀ (n : Node) (v : Survey), (s.risers[r]).use = .probe n → (s.risers[r]).survey = some v →
      let counted : State :=
        match p with
        | .failed .badParity => s.modRiser r fun u => { u with parityErrors := min 65535 (u.parityErrors + 1) }
        | .failed .notValid => s.modRiser r fun u => { u with wordErrors := min 65535 (u.wordErrors + 1) }
        | .failed .noReply => s
        | .replied => s
      let list := if p = .replied then insertNode n v.replied else v.replied
      Completes (.surveyProbe r p) s fun t =>
        ((∃ q : Node, v.next ≤ q.val ∧ (s.risers[r]).presence[q] = .absent) →
          Undisturbed (counted.modRiser r fun u => { u with survey := some { v with replied := list } }) t) ∧
        ((∀ q : Node, v.next ≤ q.val → (s.risers[r]).presence[q] ≠ .absent) →
          Undisturbed ((counted.modRiser r fun u => { u with survey := none }).offer (.survey r list false)) t)

/-- POLL_PAUSE_END makes the regular poll of the enrolled address that follows the poll pointer, wrapping to the
lowest; where no pause is waited it has no effect (R116, R119). NONE from the node polled clears its missed count, and
brings a LOST node back with a NODE notice; from another node it is a word error and a missed poll of the node polled,
as a MISSED_POLL is: it counts for a PRESENT node, which goes LOST at the riser's missed limit, and not for a LOST one
(R113, R120, R121); with no window open it is disregarded (the model's reading, notes/assumptions/15.md). -/
def Obligations.RegularPollsAndReplies : Prop :=
  (∀ (r : Riser) (s : State),
     (s.feedOn r = false ∨ (s.risers[r]).use ≠ .pause → exec (.pollPauseEnd r) s = .next s) ∧
     ∀ n : Node, s.feedOn r = true → (s.risers[r]).use = .pause → (s.risers[r]).Follows n →
       exec (.pollPauseEnd r) s = .next
         (s.modRiser r fun u => { u with pointer := some n, lastPoll := .regular, use := .regularPoll n, useMs := 2 })) ∧
  (∀ (h : Handset) (s : State), s.arb.due = [] →
     ((s.risers[h.riser]).use = .silent ∨ (s.risers[h.riser]).use = .idle ∨ (s.risers[h.riser]).use = .pause →
       exec (.noneReply h.riser h.node) s = .next s) ∧
     ((s.risers[h.riser]).use = .regularPoll h.node ∨ (s.risers[h.riser]).use = .attentionPoll h.node →
       (s.presenceOf h = .present → Completes (.noneReply h.riser h.node) s (Undisturbed (s.putNode h .present 0))) ∧
       (s.presenceOf h = .lost →
         Completes (.noneReply h.riser h.node) s (Undisturbed ((s.putNode h .present 0).offer (.node h false))))) ∧
     ∀ n : Node, n ≠ h.node → (s.risers[h.riser]).use = .regularPoll n ∨ (s.risers[h.riser]).use = .attentionPoll n →
       let polled : Handset := { riser := h.riser, node := n }
       let counted := s.modRiser h.riser fun u => { u with wordErrors := min 65535 (u.wordErrors + 1) }
       let missed := (s.risers[h.riser]).missed[n] + 1
       exec (.noneReply h.riser h.node) s = exec (.missedPoll h.riser .notValid) s ∧
       (s.presenceOf polled = .lost → Completes (.noneReply h.riser h.node) s (Undisturbed counted)) ∧
       (s.presenceOf polled = .present → missed < (s.feeds[h.riser]).entry.missed →
         Completes (.noneReply h.riser h.node) s (Undisturbed (counted.putNode polled .present missed))) ∧
       (s.presenceOf polled = .present → (s.feeds[h.riser]).entry.missed ≤ missed →
         Completes (.noneReply h.riser h.node) s (Steady (counted.putNode polled .lost missed))))

/-- The next use of a bus (`NextUse`; R111, R115 to R119). A bus whose use has been settled stays taken for what is left
of its 2 ms, and takes its next use as the millisecond ends in which they are over (notes/assumptions/1.md for the
millisecond). A NONE from the node polled settles the poll: the bus takes its next use at once when the 2 ms are over
already, and otherwise nothing follows but the node's missed count cleared. -/
def Obligations.BusChoosesNextUse : Prop :=
  (∀ (r : Riser) (s : State), s.pending = [] → s.feedOn r = true → (s.risers[r]).use = .idle →
     let u := s.risers[r]
     (u.useMs ≤ 1 → u.allClearMs ≤ 1 → ∃ t : State, step s = .next t ∧ NextUse u (t.risers[r])) ∧
     (2 ≤ u.useMs ∨ 2 ≤ u.allClearMs → ∃ t : State, step s = .next t ∧
       t.risers[r] = { u with useMs := u.useMs - 1, allClearMs := u.allClearMs - 1 })) ∧
  (∀ (h : Handset) (s : State), s.arb.due = [] →
     (s.risers[h.riser]).use = .regularPoll h.node ∨ (s.risers[h.riser]).use = .attentionPoll h.node →
     s.presenceOf h = .present → s.feedOn h.riser = true → (s.risers[h.riser]).allClearMs = 0 →
     let u := s.risers[h.riser]
     (u.useMs = 0 → Completes (.noneReply h.riser h.node) s fun t => NextUse u (t.risers[h.riser])) ∧
     (u.useMs ≠ 0 → Completes (.noneReply h.riser h.node) s fun t =>
       t.risers[h.riser] = { u with use := .idle, missed := put u.missed h.node 0 }))

/-- What the queues of a riser take (R122, R124 to R126, R131). SLOT and CLEAR join the end of the control queue. An
indication takes the place of a queued one of its category for its node that is not in service; else it joins the end,
or is dropped and counted when the queue holds 24. Nothing is queued for a node that is not PRESENT or whose feed is
off. -/
def Obligations.RiserQueuesTakeMessages : Prop :=
  ∀ (h : Handset) (s : State),
    (s.presenceOf h ≠ .present ∨ s.feedOn h.riser = false →
      (∀ i : Indication, s.indicate h i = s) ∧ (∀ k : Slot, s.sendSlot h k = s) ∧ ∀ c : CallId, s.sendClear h c = s) ∧
    (s.presenceOf h = .present → s.feedOn h.riser = true →
      let u := s.risers[h.riser]
      let first := if u.indicationTry = 0 then 0 else 1
      (∀ k : Slot, s.sendSlot h k = s.modRiser h.riser fun v => { v with control := v.control ++ [.slot h.node k] }) ∧
      (∀ c : CallId, s.sendClear h c = s.modRiser h.riser fun v => { v with control := v.control ++ [.clear h.node c] }) ∧
      ∀ i : Indication,
        let same := fun e : IndicationEntry => e.node = h.node ∧ e.content.category = i.category
        (∀ (k : Nat) (e : IndicationEntry), first ≤ k → u.indications[k]? = some e → same e →
          (∀ (j : Nat) (d : IndicationEntry), first ≤ j → j < k → u.indications[j]? = some d → ¬ same d) →
          s.indicate h i = s.modRiser h.riser fun v =>
            { v with indications := v.indications.set k { node := h.node, content := i } }) ∧
        ((∀ e ∈ u.indications.drop first, ¬ same e) → u.indications.length < 24 →
          s.indicate h i = s.modRiser h.riser fun v =>
            { v with indications := v.indications ++ [{ node := h.node, content := i }] }) ∧
        ((∀ e ∈ u.indications.drop first, ¬ same e) → 24 ≤ u.indications.length →
          s.indicate h i = s.modRiser h.riser fun v => { v with dropped := min 65535 (v.dropped + 1) }))

/-- MISSED_POLL counts its fault and the missed poll of a PRESENT node, which becomes LOST when the count reaches the
riser's missed limit, with its NODE notice, and, of a node in no call, with its line state IDLE; a LOST node's missed
poll changes nothing (R113, R121, R122, R4). Where no poll is under way the event has no effect (the model's reading,
notes/assumptions/15.md). -/
def Obligations.MissedPollCounts : Prop :=
  ∀ (h : Handset) (f : WindowFault) (s : State), s.arb.due = [] →
    ((∀ n : Node, (s.risers[h.riser]).use ≠ .regularPoll n ∧ (s.risers[h.riser]).use ≠ .attentionPoll n) →
      exec (.missedPoll h.riser f) s = .next s) ∧
    ((s.risers[h.riser]).use = .regularPoll h.node ∨ (s.risers[h.riser]).use = .attentionPoll h.node →
      let counted : State :=
        match f with
        | .badParity => s.modRiser h.riser fun u => { u with parityErrors := min 65535 (u.parityErrors + 1) }
        | .notValid => s.modRiser h.riser fun u => { u with wordErrors := min 65535 (u.wordErrors + 1) }
        | .noReply => s
      let missed := (s.risers[h.riser]).missed[h.node] + 1
      (s.presenceOf h = .lost → Completes (.missedPoll h.riser f) s (Undisturbed counted)) ∧
      (s.presenceOf h = .present → missed < (s.feeds[h.riser]).entry.missed →
        Completes (.missedPoll h.riser f) s (Undisturbed (counted.putNode h .present missed))) ∧
      (s.presenceOf h = .present → (s.feeds[h.riser]).entry.missed ≤ missed →
        Completes (.missedPoll h.riser f) s fun t => Steady (counted.putNode h .lost missed) t ∧
          (clearsFor h.node (s.risers[h.riser]).control = [] → s.mgmt.notices.length < 16 →
            s.mgmt.mask.getLsbD 2 = true → Notice.node h true ∈ t.mgmt.notices) ∧
          ((∀ (c : CallId) (x : Call), s.call? c = some x →
              x.losesWith h = false ∧ ∀ m ∈ x.ringSet, m.handset ≠ h) →
            clearsFor h.node (s.risers[h.riser]).control = [] →
            t.lineState h = .idle ∧ t.ctl.calls = s.ctl.calls ∧ t.arb = s.arb)))

/-- A handset leaves its call. A missed poll at the limit reports it LOST: the call of which it is the origin in
WAITING or RINGING, or a party in TALK or HELD, ends LINK-LOST (LINE-FAULT with its feed off), without a CLEAR to it;
a ring set it belongs to goes on without it, its skipped segments kept in the call's total, and a ring set so emptied
is a ring timeout, NO-ANSWER for a class that does not forward (R4, R23, R87). KEY URGENT from a RINGING handset takes
it out of its ring set in the same way, with RING-STOP. While no call waits for a slot, the ring timeout of a call so
left without members, be it its end or its forward, is complete in the state in which the handset then originates an
URGENT call from IDLE (R9, R16, R23 to R25); of a forward this is said while no slot is reserved, the call holds at most
one slot of each riser (CallTableKept) and the step taken does not ring the handset again (what holds then is the
model's choice, notes/assumptions/21.md). -/
def Obligations.HandsetLeavesItsCall : Prop :=
  (∀ (h : Handset) (f : WindowFault) (s : State), CallsInOrder s → RolesInOrder s →
     (s.risers[h.riser]).use = .regularPoll h.node ∨ (s.risers[h.riser]).use = .attentionPoll h.node →
     let counted : State :=
       match f with
       | .badParity => s.modRiser h.riser fun u => { u with parityErrors := min 65535 (u.parityErrors + 1) }
       | .notValid => s.modRiser h.riser fun u => { u with wordErrors := min 65535 (u.wordErrors + 1) }
       | .noReply => s
     let missed := (s.risers[h.riser]).missed[h.node] + 1
     s.presenceOf h = .present → (s.feeds[h.riser]).entry.missed ≤ missed →
     clearsFor h.node (s.risers[h.riser]).control = [] →
     let d := (counted.putNode h .lost missed).offer (.node h true)
     (∀ (c : CallId) (x : Call), s.findCall (fun y => y.losesWith h) = some c → s.call? c = some x →
       Completes (.missedPoll h.riser f) s fun t =>
         Ends c (if s.feedOn h.riser then .linkLost else .lineFault) d t ∧ Clears c d t ∧ t.lineState h = .idle ∧
           ((∀ g ∈ x.parties, g = h) → t.call? c = none)) ∧
     (∀ (c : CallId) (x : Call), s.findCall (fun y => y.ringSet.any fun m => m.handset == h) = some c →
       s.call? c = some x →
       let left := x.ringSet.filter fun m => m.handset != h
       Completes (.missedPoll h.riser f) s fun t => Steady d t ∧ t.lineState h = .idle ∧
         (∀ z ∈ t.ring.sounding[h.riser], z.node ≠ h.node) ∧
         (left ≠ [] → ∃ y, t.call? c = some y ∧ y.state = x.state ∧ y.segment = x.segment ∧ y.ringSet = left ∧
           y.skippedTotal = min 65535 (x.skippedTotal +
             ((x.ringSet.filter fun m => m.handset == h).map Member.skipped).sum)) ∧
         (left = [] → x.params.forward = false → Ends c .noAnswer d t))) ∧
  (∀ (h : Handset) (c u : CallId) (x : Call) (s : State), CallsInOrder s →
     (s.risers[h.riser]).use = .regularPoll h.node ∨ (s.risers[h.riser]).use = .attentionPoll h.node →
     s.presenceOf h ≠ .absent → s.lineState h = .ringing → s.supply.mode.isSome = true →
     s.originCall (.handset h) = none → s.freeRecord = some u → s.call? c = some x →
     s.findCall (fun y => y.ringSet.any fun m => m.handset == h) = some c →
     let s1 := (s.endUse h.riser).nodeReplied h
     let z := s1.newCall .urgent (.handset h) .desk
     let d := s1.takeRecord u z
     let left := x.ringSet.filter fun m => m.handset != h
     (left ≠ [] → Completes (.keyUrgent h.riser h.node) s fun t => Steady d t ∧ t.lineState h = .idle ∧
       JudgesDesk z s1 (Admits u z s1 d t) ∧
       (s1.reachable h = true → (s.risers[h.riser]).indications.length < 24 →
         { node := h.node, content := .ringStop } ∈ (t.risers[h.riser]).indications) ∧
       ∃ y, t.call? c = some y ∧ y.state = x.state ∧ y.segment = x.segment ∧ y.ringSet = left) ∧
     (left = [] → x.params.forward = false → x.parties = [] → Completes (.keyUrgent h.riser h.node) s fun t =>
       (NoWaiters s → t.lineState h = .idle) ∧
       (s.mgmt.mask.getLsbD 0 = true → s.mgmt.notices.length ≤ 13 →
         ∃ k : CallEnd, Notice.callEnd k ∈ t.mgmt.notices ∧ k.record = c ∧ k.cause = .noAnswer)) ∧
     (left = [] → NoWaiters s →
       let q := (s1.leaveForUrgent leaveRounds h).1
       (x.params.forward = false → Ends c .noAnswer s1 q ∧
         Completes (.keyUrgent h.riser h.node) s (OriginatesUrgent h q)) ∧
       ∀ (i : DirIndex) (a : Apartment), x.params.forward = true → x.original = some i → s.dir.entries[i] = some a →
         NodesFew s → (∀ (r : Riser) (k : Slot), ((s.arb.risers[r]).cells[k]).reserved = none) →
         x.SlotsApart → (∀ p ∈ x.slots, ((s.arb.risers[p.1]).cells[p.2]).holder = some c) →
         let p := (s1.leaveRinging h).1.stopRinging c
         (∀ j : DirIndex, (a.chain.drop x.chainPos).find? (p.stepUsable x) = some (.apartment j) →
           h ∉ p.ringable j) →
         Forwards c x i a s1 p q ∧ Completes (.keyUrgent h.riser h.node) s (OriginatesUrgent h q)))

/-- A valid ACK settles the message in service, which leaves its queue: a SLOT and an indication clear the node's
missed count and nothing else follows; the last pending CLEAR of a call in ENDING completes it (R29, R113, R123). A
command or indication to which nothing answers stays for a second attempt after its first, and after the second leaves
its queue and is a missed poll of its node, a dropped CLEAR settling its call's pending one (R29, R123). An ACK with no
window open is disregarded, and with no message in service the failing of one has no effect (the model's reading,
notes/assumptions/15.md). -/
def Obligations.MessageInServiceSettles : Prop :=
  (∀ (h : Handset) (s : State), s.arb.due = [] →
     let u := s.risers[h.riser]
     (u.use = .silent ∨ u.use = .idle ∨ u.use = .pause → ∀ code : Byte, exec (.ack h.riser h.node code) s = .next s) ∧
     (s.presenceOf h ≠ .absent →
       (∀ (k : Slot) (rest : List Command), u.use = .control → u.control = .slot h.node k :: rest →
         Completes (.ack h.riser h.node 0x02) s fun t =>
           Undisturbed (s.modRiser h.riser fun v => { v with missed := put v.missed h.node 0 }) t ∧
           (t.risers[h.riser]).control = rest) ∧
       (∀ (e : IndicationEntry) (rest : List IndicationEntry), u.use = .indication → u.indications = e :: rest →
         e.node = h.node →
         Completes (.ack h.riser h.node e.content.code) s fun t =>
           Undisturbed (s.modRiser h.riser fun v => { v with missed := put v.missed h.node 0 }) t ∧
           (t.risers[h.riser]).indications = rest) ∧
       (∀ (c : CallId) (x : Call) (rest : List Command), u.use = .control → u.control = .clear h.node c :: rest →
         s.call? c = some x → x.state = .ending → x.pendingClears = [h] →
         Completes (.ack h.riser h.node 0x03) s fun t =>
           Steady (s.modRiser h.riser fun v => { v with missed := put v.missed h.node 0 }) t ∧ t.call? c = none ∧
           (s.mgmt.notices.length < 16 → s.mgmt.mask.getLsbD 0 = true →
             ∃ k : CallEnd, Notice.callEnd k ∈ t.mgmt.notices ∧ k.record = c ∧ k.cause = x.cause.getD .completed)))) ∧
  (∀ (h : Handset) (s : State), s.arb.due = [] →
     let u := s.risers[h.riser]
     (u.use ≠ .control → u.use ≠ .indication → ∀ f : WindowFault, exec (.commandNoAck h.riser f) s = .next s) ∧
     (s.presenceOf h = .present → ∀ (m : Command) (rest : List Command), u.use = .control → u.control = m :: rest →
       m.node = h.node →
       (u.controlTry < 2 → Completes (.commandNoAck h.riser .noReply) s fun t => Undisturbed s t ∧
         (t.risers[h.riser]).control = m :: rest ∧ (t.risers[h.riser]).controlTry = 2) ∧
       (2 ≤ u.controlTry → (u.missed[h.node]) + 1 < (s.feeds[h.riser]).entry.missed →
         (∀ k : Slot, m = .slot h.node k →
           Completes (.commandNoAck h.riser .noReply) s fun t =>
             Undisturbed (s.putNode h .present (u.missed[h.node] + 1)) t ∧ (t.risers[h.riser]).control = rest) ∧
         (∀ (c : CallId) (x : Call), m = .clear h.node c → s.call? c = some x → x.state = .ending →
           x.pendingClears = [h] →
           Completes (.commandNoAck h.riser .noReply) s fun t =>
             Steady (s.putNode h .present (u.missed[h.node] + 1)) t ∧ t.call? c = none))) ∧
     (s.presenceOf h = .present → ∀ (e : IndicationEntry) (rest : List IndicationEntry), u.use = .indication →
       u.indications = e :: rest → e.node = h.node →
       (u.indicationTry < 2 → Completes (.commandNoAck h.riser .noReply) s fun t => Undisturbed s t ∧
         (t.risers[h.riser]).indications = e :: rest ∧ (t.risers[h.riser]).indicationTry = 2) ∧
       (2 ≤ u.indicationTry → (u.missed[h.node]) + 1 < (s.feeds[h.riser]).entry.missed →
         Completes (.commandNoAck h.riser .noReply) s fun t =>
           Undisturbed (s.putNode h .present (u.missed[h.node] + 1)) t ∧ (t.risers[h.riser]).indications = rest)))

/-- A slot returned at the completion of call `v`, on a riser that stood at its usable count, is a grant event (R60 to
R65, R69), shown of the ACK of the last CLEAR. A reservation on it is served whatever the levels in the list.
Otherwise the call of highest level, the one nearest the head among equals, is chosen and granted the lowest FREE
slot: a claim enters TALK and another call rings. A call that needs a second riser is granted a slot of both when that
riser has one, else moves to that riser's list, else, with eight waiting there, is passed over; then a call waiting in
another riser's list for this one is granted both of its slots. -/
def Obligations.ReturnedSlotServesWaiters : Prop :=
  (∀ (level : CallId → Nat) (q : List CallId) (c : CallId),
     bestOf level q = some c ↔ ∃ before after, q = before ++ c :: after ∧ (∀ d ∈ before, level d < level c) ∧
       ∀ d ∈ after, level d ≤ level c) ∧
  (∀ (h : Handset) (v c : CallId) (y x : Call) (r : Riser) (k : Slot) (rest : List Command) (s : State),
     s.arb.due = [] → (s.risers[h.riser]).use = .control → (s.risers[h.riser]).control = .clear h.node v :: rest →
     s.presenceOf h ≠ .absent → s.call? v = some y → y.state = .ending → y.pendingClears = [h] → y.slots = [(r, k)] →
     s.feedOn r = true →
     let a := s.arb.risers[r]
     let s1 := s.setCall v none
     let granted := fun (slots : List (Riser × Slot)) (t : State) =>
       (∀ p ∈ slots, (t.arb.risers[p.1]).cells[p.2] = { holder := some c, reserved := none }) ∧
       ∃ z, t.call? c = some z ∧ z.waitKind = none ∧ z.slots = x.slots ++ slots ∧
         (x.claim = true → z.state = s.talkState x ∧ z.claim = false ∧ z.talkMs = some 0 ∧
           ∀ o : Handset, x.origin = .handset o → t.lineState o = .connected) ∧
         (x.claim = false → z.state = .ringing ∧
           ∀ i : DirIndex, x.target = .apartment i → z.ringSet.map Member.handset = s1.ringable i)
     (a.cells[k]).holder = some v → a.held = s.arb.usable → s.call? c = some x → c ≠ v → x.state = .waiting →
     (∀ q : Slot, q ≠ k → (a.cells[q]).holder = none → (a.cells[q]).reserved = none) →
     (x.claim = false → ∃ i : DirIndex, x.target = .apartment i ∧ s1.ringable i ≠ []) →
     ((a.cells[k]).reserved = some c → c ∈ a.wait →
       Completes (.ack h.riser h.node 0x03) s fun t => t.call? v = none ∧ granted [(r, k)] t ∧
         (t.arb.risers[r]).wait = a.wait.filter fun d => d != c) ∧
     ∀ j : Slot, (a.cells[k]).reserved = none →
       allSlots.find? (fun q => q == k || (a.cells[q]).holder.isNone) = some j →
       (bestOf s.levelOf a.wait = some c → s.otherNeeded r c = none →
         Completes (.ack h.riser h.node 0x03) s fun t => t.call? v = none ∧ granted [(r, j)] t ∧
           (t.arb.risers[r]).wait = a.wait.filter fun d => d != c) ∧
       ∀ q : Riser, a.wait = [c] → s.otherNeeded r c = some q →
         (∀ i : Slot, s.canGrant q = true → (s.arb.risers[q]).freeSlot = some i →
           Completes (.ack h.riser h.node 0x03) s fun t => t.call? v = none ∧ granted [(r, j), (q, i)] t ∧
             (t.arb.risers[r]).wait = []) ∧
         (s.hasRoom q = false → (s.arb.risers[q]).wait.length < 8 → (∀ z : Riser, z ≠ r → s.wantsRiser r z = false) →
           Completes (.ack h.riser h.node 0x03) s fun t => t.call? v = none ∧ (t.arb.risers[r]).wait = [] ∧
             (t.arb.risers[q]).wait = insertByStamp s1.stampOf c (s.arb.risers[q]).wait ∧
             t.call? c = some { x with waitKind := some (.riser q) }) ∧
         (s.hasRoom q = false → 8 ≤ (s.arb.risers[q]).wait.length →
           ((∀ z : Riser, z ≠ r → s.wantsRiser r z = false) →
             Completes (.ack h.riser h.node 0x03) s fun t => t.call? v = none ∧ (t.arb.risers[r]).wait = [c] ∧
               t.call? c = some x ∧ (t.arb.risers[r]).held + 1 = s.arb.usable) ∧
           ∀ (z : Riser) (e : CallId) (w : Call) (i : Slot), z ≠ r → (s.arb.risers[z]).wait = [e] → s.call? e = some w →
             e ≠ v → w.claim = false → s.otherNeeded z e = some r → s.canGrant z = true → (s.arb.risers[z]).freeSlot = some i →
             (∀ m : Slot, ((s.arb.risers[z]).cells[m]).holder = none → ((s.arb.risers[z]).cells[m]).reserved = none) →
             (∃ n : DirIndex, w.target = .apartment n ∧ s1.ringable n ≠ []) →
             (∀ y : Riser, y ≠ r → y ≠ z → s.wantsRiser r y = false) →
             Completes (.ack h.riser h.node 0x03) s fun t => t.call? v = none ∧ (t.arb.risers[z]).wait = [] ∧
               ((t.arb.risers[z]).cells[i]).holder = some e ∧ ((t.arb.risers[r]).cells[j]).holder = some e ∧
               ∃ n, t.call? e = some n ∧ n.state = .ringing ∧ n.slots = w.slots ++ [(z, i), (r, j)]))

/-! ### Ringing -/

/-- A segment of a ringing call's cadence ends: the first segment of the cycle's rest whose duration is not 0 starts,
the others being passed over; at the end of an ON segment with an OFF one to follow the members fall silent; at the
end of a cycle the next one starts at on1, one more completed, or with the limit reached a call whose class does not
forward ends NO-ANSWER (R23, R77, R78, R86); RingTimeoutForwards states the class that forwards. The event is taken as
the segment's end whenever one is under way, and otherwise has no effect (the model's reading,
notes/assumptions/2.md). -/
def Obligations.CadenceSegmentEnds : Prop :=
  ∀ (c : CallId) (s : State), s.arb.due = [] →
    (s.call? c = none → exec (.cadenceSegmentEnd c) s = .next s) ∧
    ∀ x : Call, s.call? c = some x →
      (x.state ≠ .ringing ∨ x.segment = none → exec (.cadenceSegmentEnd c) s = .next s) ∧
      ∀ (g : Segment) (ms : Nat), x.state = .ringing → x.segment = some (g, ms) →
        let p := s.dir.profiles[x.params.profile]
        (∀ q : Segment, g.following.find? (fun z => p.units z != 0) = some q →
          Completes (.cadenceSegmentEnd c) s fun t => Steady s t ∧
            (∃ y, t.call? c = some y ∧ y.state = .ringing ∧ y.segment = some (q, 50 * p.units q) ∧ y.cycles = x.cycles ∧
              y.ringSet.map Member.handset = x.ringSet.map Member.handset ∧
              (g.isOn = true → q.isOn = false → ∀ m ∈ y.ringSet, m.sounding = false ∧ m.load = 0)) ∧
            (g.isOn = true → q.isOn = false → ∀ m ∈ x.ringSet, ∀ z ∈ t.ring.sounding[m.handset.riser],
              z.node ≠ m.handset.node) ∧
            t.ctl.lines = s.ctl.lines ∧ t.arb = s.arb ∧ t.desk = s.desk ∧ t.links = s.links ∧ t.mgmt = s.mgmt ∧
            ∀ d : CallId, d ≠ c → t.call? d = s.call? d) ∧
        ((∀ q ∈ g.following, p.units q = 0) → x.cycles + 1 < x.params.cycles →
          Completes (.cadenceSegmentEnd c) s fun t => Steady s t ∧
            (∃ y, t.call? c = some y ∧ y.state = .ringing ∧ y.segment = some (.on1, 50 * p.on1) ∧
              y.cycles = x.cycles + 1 ∧ y.ringSet.map Member.handset = x.ringSet.map Member.handset) ∧
            t.ctl.lines = s.ctl.lines ∧ t.arb = s.arb ∧ t.desk = s.desk ∧ t.links = s.links ∧ t.mgmt = s.mgmt ∧
            ∀ d : CallId, d ≠ c → t.call? d = s.call? d) ∧
        ((∀ q ∈ g.following, p.units q = 0) → x.params.cycles ≤ x.cycles + 1 → x.params.forward = false →
          x.parties = [] →
          Completes (.cadenceSegmentEnd c) s fun t => Steady s t ∧ t.call? c = none ∧
            (s.mgmt.mask.getLsbD 0 = true → s.mgmt.notices.length ≤ 14 →
              ∃ k : CallEnd, Notice.callEnd k ∈ t.mgmt.notices ∧ k.record = c ∧ k.cause = .noAnswer))

/-- The ring timeout of a call whose class forwards, reached as its last ring cycle completes (R23 to R25), while no
call waits and no slot is reserved, the call table is in order, the call holds at most one slot of each riser
(CallTableKept) and no apartment lists more than four nodes. The steps left of the original apartment's chain are considered in order, each moving the chain position: none usable, the call
ends NO-ANSWER; a DESK step, it returns its slots and joins the desk queue; an apartment for which it holds every slot
needed, it rings again over them; another, it returns its slots and asks for new ones, with the outcomes of check 10.
What a NEIGHBOUR call needs towards its caller's own riser is read as notes/assumptions/23.md says. -/
def Obligations.RingTimeoutForwards : Prop :=
  ∀ (c : CallId) (x : Call) (g : Segment) (ms : Nat) (i : DirIndex) (a : Apartment) (s : State), CallsInOrder s →
    NodesFew s → NoWaiters s → (∀ (r : Riser) (k : Slot), ((s.arb.risers[r]).cells[k]).reserved = none) →
    s.call? c = some x → x.state = .ringing → x.segment = some (g, ms) →
    (∀ q ∈ g.following, (s.dir.profiles[x.params.profile]).units q = 0) → x.params.cycles ≤ x.cycles + 1 →
    x.params.forward = true → x.original = some i → s.dir.entries[i] = some a →
    x.SlotsApart → (∀ p ∈ x.slots, ((s.arb.risers[p.1]).cells[p.2]).holder = some c) →
    let q := s.stopRinging c
    let step := (a.chain.drop x.chainPos).find? (q.stepUsable x)
    Completes (.cadenceSegmentEnd c) s fun t => Steady s t ∧
      (∀ m ∈ x.ringSet, (∀ j : DirIndex, step = some (.apartment j) → m.handset ∉ q.ringable j) →
        t.lineState m.handset = .idle) ∧
      Forwards c x i a s q t

/-- Ring admission and cutback. At an ON segment start, be it on2, on1 of the next cycle or on1 of a call that starts to
ring (shown of a CALL), the members are judged in list order against the budget, as `RingJudged` says, with RING SOUND
or SILENT to each; after an ON segment its own ending comes first (R76 to R78, R82, R86, R88). When a feed goes to
ON-SAG, the oldest members of the sounding set that fit the halved budget keep sounding, and the newer ones are stopped,
each silent with one more skipped segment and RING SILENT (R80, R81, R84). -/
def Obligations.RingAdmissionAndCutback : Prop :=
  (∀ (c : CallId) (x : Call) (g q : Segment) (ms : Nat) (s : State), s.arb.due = [] → s.call? c = some x →
     x.state = .ringing → x.segment = some (g, ms) → q.isOn = true →
     let next := g.following.find? fun z => (s.dir.profiles[x.params.profile]).units z != 0
     next = some q ∨ next = none ∧ q = .on1 ∧ x.cycles + 1 < x.params.cycles →
     Completes (.cadenceSegmentEnd c) s fun t =>
       (g.isOn = false → RingJudged c x.ringSet s t) ∧
       (g.isOn = true → RingJudged c (x.ringSet.map Member.silenced) (s.endSounding c) t)) ∧
  (∀ (e : Entrance) (code : BitVec 16) (c : CallId) (i : DirIndex) (a : Apartment) (s : State),
     s.supply.mode.isSome = true → s.originCall (.entrance e) = none → s.freeRecord = some c → CallsInOrder s →
     NodesFew s →
     let x := s.newCall .visitor (.entrance e) (.code code)
     x.params.base ≠ 0 → s.ctl.floor < x.params.base → s.entryOfCode code = some i → s.dir.entries[i] = some a →
     a.hasPrivacy = false ∨ x.params.hasPrivacy = false → s.ringable i ≠ [] → s.canGrant a.riser = true →
     Completes (.call e code) s (RingJudged c ((s.ringable i).map Member.fresh) s)) ∧
  (∀ (r : Riser) (v : BitVec 10) (s : State), (s.feeds[r]).state = .onNormal → (s.feeds[r]).settle = none →
     s.arb.due = [] → (s.ring.sounding[r].map Sounding.node).Nodup →
     let k := s.meas.voltage[r]
     let code := if k.seed = true then v.toNat else (3 * k.filtered + v.toNat) / 4
     6000 ≤ code * 40 → code * 40 < (s.feeds[r]).entry.sag →
     let budget := (s.feeds[r]).entry.budget * s.ring.percent / 100 / 2
     Completes (.feedVoltageConversion r v) s fun t => t.beff r = budget ∧
       ∃ n ≤ s.ring.sounding[r].length, t.ring.sounding[r] = s.ring.sounding[r].take n ∧
         loadSum (s.ring.sounding[r].take n) ≤ budget ∧
         (∀ j : Nat, n < j → j ≤ s.ring.sounding[r].length → budget < loadSum (s.ring.sounding[r].take j)) ∧
         ∀ z ∈ s.ring.sounding[r].drop n,
           (s.reachable { riser := r, node := z.node } = true →
             (s.risers[r]).indications.length + s.ring.sounding[r].length ≤ 24 →
             { node := z.node, content := .ring .silent } ∈ (t.risers[r]).indications) ∧
           ∀ x : Call, s.call? z.call = some x →
             ∃ y, t.call? z.call = some y ∧ y.ringSet.length = x.ringSet.length ∧
               ∀ (j : Nat) (m m' : Member), x.ringSet[j]? = some m → y.ringSet[j]? = some m' →
                 m.handset = { riser := r, node := z.node } → m'.handset = m.handset ∧ m'.sounding = false ∧
                   m'.load = 0 ∧ m'.skipped = min 65535 (m.skipped + 1))

/-! ### Doors -/

/-- The door's contact: the second of two samples that agree changes the debounced contact. An opening while the
authorised window is open is OPEN-AUTH with its held timer started; another is OPEN-FORCED, raising DOOR-FORCED when
forced detection is ON; a closing is SHUT; each with its DOOR notice (R150, R151, R153). The held timer of an
OPEN-AUTH door runs out: OPEN-HELD with a DOOR notice, and DOOR-HELD is raised; a door in another state is left as it
is (R152). That DOOR_OPENING and DOOR_CLOSING are the changing sample itself, that the DOOR notice comes before the
condition, and that the expiry acts on an OPEN-AUTH door whenever it is taken, are the model's readings and choice
(notes/assumptions/14.md, 24.md, 2.md and 58.md). -/
def Obligations.DoorContactAndHeldTimer : Prop :=
  (∀ (e : Entrance) (high : Bool) (s : State),
     let d := s.doors[e]
     let isOpen := high == d.entry.openWhenHigh
     let opened : State :=
       if d.inDrive = true ∨ d.grace ≠ none then
         (s.modDoor e fun d => { d with lastSample := true, contact := true, door := .openAuth,
                                        held := some (1000 * d.entry.heldLimit) }).offer (.door e .openAuth)
       else
         let t := (s.modDoor e fun d => { d with lastSample := true, contact := true, door := .openForced,
                                                 held := none }).offer (.door e .openForced)
         if d.entry.forced = true then t.raise (.doorForced e) else t
     let shut : State := (s.modDoor e fun d => { d with lastSample := false, contact := false, door := .shut,
                                                        held := none }).offer (.door e .shut)
     (isOpen ≠ d.lastSample ∨ isOpen = d.contact →
       exec (.doorContactSample e high) s = .next (s.modDoor e fun d => { d with lastSample := isOpen })) ∧
     (isOpen = true → d.lastSample = true → d.contact = false → exec (.doorContactSample e high) s = .next opened) ∧
     (isOpen = false → d.lastSample = false → d.contact = true → exec (.doorContactSample e high) s = .next shut) ∧
     (d.contact = false → exec (.doorOpening e) s = .next opened ∧ exec (.doorClosing e) s = .next s) ∧
     (d.contact = true → exec (.doorOpening e) s = .next s ∧ exec (.doorClosing e) s = .next shut)) ∧
  (∀ (e : Entrance) (s : State),
     ((s.doors[e]).door ≠ .openAuth → exec (.heldTimerExpiry e) s = .next s) ∧
     ((s.doors[e]).door = .openAuth → Completes (.heldTimerExpiry e) s fun t =>
       t.mgmt.conditions.latched (.doorHeld e) = true ∧
       ((s.doors[e]).door = .openAuth → s.mgmt.notices.length < 16 → s.mgmt.mask.getLsbD 1 = true →
         Notice.door e .openHeld ∈ t.mgmt.notices) ∧
       (s.mgmt.conditions.latched (.doorHeld e) = false → s.mgmt.notices.length < 15 → s.mgmt.mask.getLsbD 7 = true →
         Notice.condition (.doorHeld e) ∈ t.mgmt.notices) ∧
       ∃ k : Management, t = { (s.modDoor e fun d => { d with door := .openHeld, held := none }) with mgmt := k } ∧
         k.windows = s.mgmt.windows ∧ k.mask = s.mgmt.mask ∧
         ∀ q : Condition, q ≠ .doorHeld e → k.conditions.latched q = s.mgmt.conditions.latched q))

/-! ### Supply -/

/-- A battery conversion is filtered, and judged once a mode is set: RESERVE falls to DEPLETED below the depleted
threshold, DEPLETED rises to RESERVE at 300 mV above it, FULL stays; a change gives the mode's values to their owners
(R158, R171, R172). A mains sample that agrees with the two before it and differs from the debounced mains changes it,
and so does the event of that change: PRESENT leads RESERVE and DEPLETED to FULL, ABSENT leads FULL to RESERVE, and
nothing else follows; other samples only join the two kept (R170 to R173). That DEBOUNCED_MAINS_CHANGE is the changing
sample itself is the model's reading (notes/assumptions/14.md). The first supply mode, once the debounced mains and
the battery have been read: FULL with mains, RESERVE without while the battery stands at the depleted threshold or
above, DEPLETED below it; with a mode set already, or a reading still missing, the event has no effect (R173). That the
battery is judged by its filtered value as it then stands is the model's choice (notes/assumptions/51.md). -/
def Obligations.SupplyModeFollowsMainsAndBattery : Prop :=
  (∀ (c : BitVec 10) (s : State),
     let k := s.meas.battery
     let code := if k.seed = true then c.toNat else (3 * k.filtered + c.toNat) / 4
     let s1 : State := { s with meas := { s.meas with battery := { filtered := code, seed := false } } }
     let low := s.supply.record.depleted
     (s.supply.mode = none ∨ s.supply.mode = some .full ∨ s.supply.mode = some .reserve ∧ low ≤ code * 20 ∨
         s.supply.mode = some .depleted ∧ code * 20 < low + 300 → exec (.batteryConversion c) s = .next s1) ∧
     (s.supply.mode = some .reserve → code * 20 < low → Completes (.batteryConversion c) s fun t =>
       ModeSet s1 .depleted t ∧ (s.supply.mode ≠ none → s.mgmt.notices.length < 16 → s.mgmt.mask.getLsbD 4 = true →
         Notice.supply .depleted ∈ t.mgmt.notices)) ∧
     (s.supply.mode = some .depleted → low + 300 ≤ code * 20 → Completes (.batteryConversion c) s fun t =>
       ModeSet s1 .reserve t ∧ (s.mgmt.notices.length < 16 → s.mgmt.mask.getLsbD 4 = true →
         Notice.supply .reserve ∈ t.mgmt.notices))) ∧
  (∀ (present : Bool) (s : State) (m : Instr), s.arb.due = [] →
     (s.supply.samples ≠ [present, present] ∨ s.supply.mains = some present →
       exec (.mainsSenseSample present) s = .next
         { s with supply := { s.supply with samples := joinSamples s.supply.samples present } }) ∧
     (s.supply.mains = some present → exec (.debouncedMainsChange present) s = .next s) ∧
     (m = .mainsSenseSample present ∧ s.supply.samples = [present, present] ∨ m = .debouncedMainsChange present →
       s.supply.mains ≠ some present →
       let s1 : State := { s with supply := { s.supply with mains := some present, samples := [present, present] } }
       ((s.supply.mode = none ∨ s.supply.mode = some .full ∧ present = true ∨
           s.supply.mode ≠ some .full ∧ present = false) → Completes m s (Undisturbed s1)) ∧
       (s.supply.mode = some .reserve ∨ s.supply.mode = some .depleted → present = true →
         Completes m s (ModeSet s1 .full)) ∧
       (s.supply.mode = some .full → present = false → Completes m s (ModeSet s1 .reserve)))) ∧
  (∀ s : State,
     (s.supply.mode ≠ none ∨ s.supply.mains = none ∨ s.meas.battery.seed = true → exec .firstSupplyMode s = .next s) ∧
     (s.supply.mode = none → s.meas.battery.seed = false →
       (s.supply.mains = some true → Completes .firstSupplyMode s (ModeSet s .full)) ∧
       (s.supply.mains = some false → s.supply.record.depleted ≤ s.meas.battery.filtered * 20 →
         Completes .firstSupplyMode s (ModeSet s .reserve)) ∧
       (s.supply.mains = some false → s.meas.battery.filtered * 20 < s.supply.record.depleted →
         Completes .firstSupplyMode s (ModeSet s .depleted))))

/-! ### Start-up, restart and the settings store -/

/-- A cold start takes every table, the mask and the desk open flag from the store while its mark is VALID, and the
defaults with STORE-INVALID latched and told otherwise; every other block begins as after reset, but for the doors,
which are OPEN-AUTH or SHUT by their contacts at the first sample. A save under way is cut short, the store otherwise
kept (R75, R92, R110, R134, R145, R156, R169, R186, R189, R190). The values before the first supply mode and the first
conversions, and that the queue is kept, are the model's choices (notes/assumptions/5.md, 7.md and 27.md). -/
def Obligations.ColdStartLoadsStoreOrDefaults : Prop :=
  ∀ (contacts : Vector Bool 6) (s : State),
    let store : Store := { s.store with phase := .idle, snapshot := none }
    let door := fun (entry : DoorEntry) (high : Bool) =>
      let isOpen := high == entry.openWhenHigh
      ({ entry := entry, run := none, grace := none, lastSample := isOpen, contact := isOpen,
         door := if isOpen then .openAuth else .shut, held := if isOpen then some (1000 * entry.heldLimit) else none,
         ignored := 0 } : DoorUnit)
    (∀ p : Settings, s.store.valid = true → s.store.pages = some p → Completes (.coldStart contacts) s fun t =>
      t.dir = { entries := p.entries, handsets := p.handsets, classes := p.classes, profiles := p.profiles } ∧
      (∀ e : Entrance, t.doors[e] = door p.doors[e] contacts[e]) ∧
      (∀ r : Riser, t.feeds[r] = { entry := p.risers[r], state := .offHeld .start, retries := 0, settle := none,
                                   retry := none, stable := none } ∧
        (t.risers[r] = { State.reset.risers[r] with presence := (t.risers[r]).presence }) ∧
        ∀ n : Node, (t.risers[r]).presence[n] =
          if ((p.handsets[r])[n]).enrolled = false then .absent
          else if (p.risers[r]).enabled = true then .present else .lost) ∧
      t.supply = { record := p.supply, samples := [], mains := none, mode := none } ∧ t.mgmt.mask = p.mask ∧
      t.desk = { State.reset.desk with isOpen := p.deskOpen } ∧ t.mgmt.notices = [] ∧ t.mgmt.lost = false ∧
      (∀ e : Entrance, t.mgmt.windows[e] = none) ∧ (∀ k : Condition, t.mgmt.conditions.latched k = false) ∧
      t.store = store ∧ t.ctl = State.reset.ctl ∧ t.arb = State.reset.arb ∧ t.ring = State.reset.ring ∧
      t.links = State.reset.links ∧ t.meas = State.reset.meas ∧ t.startup = State.reset.startup ∧
      t.pending = s.pending) ∧
    (s.store.valid = false ∨ s.store.pages = none →
      exec (.coldStart contacts) s = .next
        { State.reset with doors := Vector.ofFn fun e => door DoorEntry.default contacts[e], store := store,
                           pending := s.pending })

/-- The start-up sequence's turn: of the risers from the next on, the first that is enabled and not ordered off takes
it, and is switched on when it waits in START and left as it is when it has been switched on before; those passed over
that wait in START take hold cause ORDER. The next such riser follows after 200 ms; with none left the sequence is
over, with the RESTART (cold) notice. Without a first supply mode, and with the sequence over, the event has no effect
(R161, R169, R190, R191). That a riser found switched on takes its 200 ms too, that one switched
on before its turn and ordered off again is passed over without an interval, and that the 200 ms of a riser disabled or
ordered off meanwhile are waited out are the model's choices (notes/assumptions/45.md, 49.md and 52.md). -/
def Obligations.StartupSwitchesOnInTurn : Prop :=
  ∀ s : State,
    (s.startup = none ∨ s.supply.mode = none → exec .startupSwitchOn s = .next s) ∧
    ∀ (r : Riser) (ms : Nat), s.startup = some { next := r, ms := ms } → s.supply.mode ≠ none →
      let turns := fun q : Riser => (s.feeds[q]).entry.enabled = true ∧ (s.feeds[q]).state ≠ .offHeld .order
      let after := fun (on : Option Riser) (stop : Nat) => (Vector.ofFn fun z : Riser =>
        let f := s.feeds[z]
        if f.state ≠ .offHeld .start then f
        else if on = some z then
          { f with state := .onNormal, retries := 0, retry := none, settle := some 100, stable := some 30000 }
        else if r.val ≤ z.val ∧ z.val < stop then { f with state := .offHeld .order }
        else f : Vector Feed 4)
      let told := fun (q : Riser) (d : State) =>
        if (s.feeds[q]).state = .offHeld .start then d.offer (.feed q .onNormal 0) else d
      (∀ q : Riser, r ≤ q → turns q → (∀ z : Riser, r ≤ z → z < q → ¬ turns z) →
        (∀ p : Riser, q < p → turns p → (∀ z : Riser, q < z → z < p → ¬ turns z) →
          Completes .startupSwitchOn s (Steady (told q
            { s with feeds := after (some q) p.val, startup := some { next := p, ms := 200 } }))) ∧
        ((∀ z : Riser, q < z → ¬ turns z) →
          Completes .startupSwitchOn s (Steady ((told q
            { s with feeds := after (some q) 4, startup := none }).offer (.restart true))))) ∧
      ((∀ z : Riser, r ≤ z → ¬ turns z) →
        Completes .startupSwitchOn s (Steady
          (({ s with feeds := after none 4, startup := none } : State).offer (.restart true))))

/-- RESTART from an allowed source: the reply is handed first and kept, with the REPLY, NOTICE and STATUS frames that
wait, the SIGNAL frames going; every call ends without a notice, every line is on hook, slots, waits, ringing, console
lines and queues are empty, windows close; enrolled nodes are PRESENT, unmissed, on an ON riser and LOST on an OFF
one; a release is cut short and the door states taken from the contacts, an open door's held timer anew; tables,
stamp, floor, slots, percent, feeds, supply, store, conditions, mask, counters and the queued notices are kept, with
RESTART (warm) behind them (R31, R75, R92, R110, R135, R145, R156, R175, R186, R192). That a start-up sequence under
way runs on, that the nodes of a riser waiting in START go LOST too, and that the all-node CLEAR takes 2 ms are the
model's choice and readings (notes/assumptions/46.md, 30.md and 25.md). -/
def Obligations.RestartClearsCallsAndKeepsTables : Prop :=
  ∀ (src : Link) (tag : Byte) (s : State), s.sourceAllowed src = true →
    Completes (.restart src tag) s fun t =>
      (∀ c : CallId, t.call? c = none) ∧ (∀ h : Handset, t.lineState h = .idle) ∧
      t.ctl.stamp = s.ctl.stamp ∧ t.ctl.floor = s.ctl.floor ∧
      (∀ r : Riser, (t.arb.risers[r]).wait = [] ∧ (t.arb.risers[r]).order = [] ∧ t.ring.sounding[r] = [] ∧
        (∀ k : Slot, (t.arb.risers[r]).cells[k] = { holder := none, reserved := none }) ∧
        (t.risers[r]).control = [] ∧ (t.risers[r]).controlTry = 0 ∧ (t.risers[r]).indications = [] ∧
        (t.risers[r]).indicationTry = 0 ∧ (t.risers[r]).attention = [] ∧ (t.risers[r]).attentionPos = none ∧
        (t.risers[r]).pointer = none ∧ (t.risers[r]).lastPoll = .extra ∧ (t.risers[r]).turn = .attention ∧
        (t.risers[r]).survey = none ∧ (t.risers[r]).pause = (s.risers[r]).pause ∧
        (t.risers[r]).parityErrors = (s.risers[r]).parityErrors ∧ (t.risers[r]).wordErrors = (s.risers[r]).wordErrors ∧
        (t.risers[r]).dropped = (s.risers[r]).dropped ∧
        (s.feedOn r = true → (t.risers[r]).use = .idle ∧ (t.risers[r]).allClearMs = 2) ∧
        ∀ n : Node,
          (t.risers[r]).presence[n] = (if (s.risers[r]).presence[n] = .absent then .absent
            else if s.feedOn r = true then .present else .lost) ∧
          (t.risers[r]).missed[n] = (if s.feedOn r = true then 0 else (s.risers[r]).missed[n])) ∧
      t.arb.cross = [] ∧ t.arb.usable = s.arb.usable ∧ t.ring.percent = s.ring.percent ∧
      (∀ l : LineNo, t.desk.lines[l] = .free) ∧ t.desk.queue = [] ∧ t.desk.isOpen = s.desk.isOpen ∧
      (∀ e : Entrance, t.mgmt.windows[e] = none ∧
        t.doors[e] = { s.doors[e] with
          run := none, grace := none, door := if (s.doors[e]).contact = true then .openAuth else .shut,
          held := if (s.doors[e]).contact = true then some (1000 * (s.doors[e]).entry.heldLimit) else none }) ∧
      t.dir = s.dir ∧ t.meas = s.meas ∧ t.feeds = s.feeds ∧ t.supply = s.supply ∧ t.store = s.store ∧
      t.startup = s.startup ∧ t.mgmt.conditions = s.mgmt.conditions ∧ t.mgmt.mask = s.mgmt.mask ∧
      (s.mgmt.mask.getLsbD 8 = true → s.mgmt.notices.length < 16 →
        t.mgmt.notices = s.mgmt.notices ++ [.restart false]) ∧
      ∀ l : Link,
        let u := (s.frameIn src).link l
        let kept := u.sendList.filter fun f => !f.isSignal
        (l ≠ src → t.link l = { u with sendList := kept }) ∧
        (l = src → u.sendList.length < 16 → t.link l = { u with
          sendList := kept ++ [.reply { tag := tag, code := .ok, request := some 0x10, data := [] }] }) ∧
        (l = src → 16 ≤ u.sendList.length →
          t.link l = { u with sendList := kept, sendLoss := min 65535 (u.sendLoss + 1) })

/-- SAVE: STORE-BUSY while a save is in progress; otherwise the mark becomes NOT VALID, the privacy flags, mask and
desk open flag are taken aside, and ERASING, WRITING of sixteen pages and MARKING follow, the store then holding the
settings, VALID; a page or a mark that does not compare equal fails the save. Each end gives a STORE notice. An event
of another phase has no effect (R187, R188). That the pages are held as one value is the model's choice
(notes/assumptions/29.md). -/
def Obligations.SaveWritesStoreByPhases : Prop :=
  ∀ (src : Link) (tag : Byte) (s : State),
    (s.sourceAllowed src = true →
      (s.store.phase ≠ .idle →
        exec (.save src tag) s = .next ((s.frameIn src).reply src tag 0x0F { code := .storeBusy })) ∧
      (s.store.phase = .idle → exec (.save src tag) s = .next
        (({ s.frameIn src with store :=
            { pages := none, valid := false, phase := .erasing,
              snapshot := some { hasPrivacy := s.dir.privacyFlags, mask := s.mgmt.mask, deskOpen := s.desk.isOpen } } } :
          State).reply src tag 0x0F { code := .ok }))) ∧
    (s.store.phase = .erasing → exec .saveEraseDone s = .next { s with store := { s.store with phase := .writing 0 } }) ∧
    (s.store.phase ≠ .erasing → exec .saveEraseDone s = .next s) ∧
    (∀ n : Nat, s.store.phase = .writing n →
      (n < 15 → exec (.savePageWritten true) s = .next { s with store := { s.store with phase := .writing (n + 1) } }) ∧
      (15 ≤ n → ∀ x : Snapshot, s.store.snapshot = some x →
        ∃ p : Settings,
          exec (.savePageWritten true) s = .next { s with store := { s.store with pages := some p, phase := .marking } } ∧
          p.handsets = s.dir.handsets ∧ p.classes = s.dir.classes ∧ p.profiles = s.dir.profiles ∧
          p.supply = s.supply.record ∧ p.mask = x.mask ∧ p.deskOpen = x.deskOpen ∧
          (∀ e : Entrance, p.doors[e] = (s.doors[e]).entry) ∧ (∀ r : Riser, p.risers[r] = (s.feeds[r]).entry) ∧
          ∀ i : DirIndex, p.entries[i] = (s.dir.entries[i]).map fun a => { a with hasPrivacy := x.hasPrivacy[i] }) ∧
      exec (.savePageWritten false) s = .next
        (({ s with store := { s.store with valid := false, phase := .idle, snapshot := none } } : State).offer
          (.store .failed))) ∧
    ((∀ n : Nat, s.store.phase ≠ .writing n) → ∀ equal : Bool, exec (.savePageWritten equal) s = .next s) ∧
    (s.store.phase = .marking →
      exec (.saveMarkWritten true) s = .next
        (({ s with store := { s.store with valid := true, phase := .idle, snapshot := none } } : State).offer
          (.store .done)) ∧
      exec (.saveMarkWritten false) s = .next
        (({ s with store := { s.store with valid := false, phase := .idle, snapshot := none } } : State).offer
          (.store .failed))) ∧
    (s.store.phase ≠ .marking → ∀ equal : Bool, exec (.saveMarkWritten equal) s = .next s)
end

