-- ==== Sys2Proof/Laws/Table.lean ====
section
/-! SUPPORT. Reading a table after a write (`put`, `upd`, `updAll`). -/

namespace Sys2Proof

theorem put_get {α : Type} {n : Nat} (v : Vector α n) (i j : Fin n) (x : α) :
    (put v i x)[j] = if i = j then x else v[j] := by
  simp only [put, Fin.getElem_fin, Vector.getElem_set, Fin.ext_iff]

theorem put_get_self {α : Type} {n : Nat} (v : Vector α n) (i : Fin n) (x : α) : (put v i x)[i] = x := by
  rw [put_get, if_pos rfl]

theorem put_get_ne {α : Type} {n : Nat} (v : Vector α n) {i j : Fin n} (x : α) (h : i ≠ j) :
    (put v i x)[j] = v[j] := by
  rw [put_get, if_neg h]

theorem upd_get {α : Type} {n : Nat} (v : Vector α n) (i j : Fin n) (f : α → α) :
    (upd v i f)[j] = if i = j then f v[j] else v[j] := by
  unfold upd
  rw [put_get]
  split
  · next h => rw [h]
  · rfl

theorem upd_get_self {α : Type} {n : Nat} (v : Vector α n) (i : Fin n) (f : α → α) : (upd v i f)[i] = f v[i] := by
  rw [upd_get, if_pos rfl]

theorem upd_get_ne {α : Type} {n : Nat} (v : Vector α n) {i j : Fin n} (f : α → α) (h : i ≠ j) :
    (upd v i f)[j] = v[j] := by
  rw [upd_get, if_neg h]

theorem updAll_get {α : Type} {n : Nat} (v : Vector α n) (f : Fin n → α → α) (j : Fin n) :
    (updAll v f)[j] = f j v[j] := by
  simp only [updAll, Fin.getElem_fin, Vector.getElem_ofFn]

/-- A field that a change of one entry keeps is kept in every entry. -/
theorem upd_keeps {α β : Type} {n : Nat} (v : Vector α n) (i j : Fin n) (f : α → α) (g : α → β)
    (h : ∀ x, g (f x) = g x) : g (upd v i f)[j] = g v[j] := by
  rw [upd_get]
  split
  · exact h _
  · rfl

/-- A table is read as the function it was made from. -/
theorem ofFn_get {α : Type} {n : Nat} (f : Fin n → α) (j : Fin n) : (Vector.ofFn f)[j] = f j := by
  simp only [Fin.getElem_fin, Vector.getElem_ofFn]

/-- Two tables that read the same are the same. -/
theorem table_ext {α : Type} {n : Nat} {v w : Vector α n} (h : ∀ j : Fin n, v[j] = w[j]) : v = w :=
  Vector.ext fun i hi => h ⟨i, hi⟩

/-- A change of one entry depends on that entry alone. -/
theorem upd_congr {α : Type} {n : Nat} (v : Vector α n) (i : Fin n) (f g : α → α) (h : f v[i] = g v[i]) :
    upd v i f = upd v i g := by
  unfold upd
  rw [h]

/-- Two changes of one entry are one. -/
theorem upd_upd {α : Type} {n : Nat} (v : Vector α n) (i : Fin n) (f g : α → α) :
    upd (upd v i f) i g = upd v i fun x => g (f x) := by
  apply table_ext
  intro j
  simp only [upd_get]
  by_cases h : i = j
  · simp only [if_pos h]
  · simp only [if_neg h]

/-- A change that leaves its entry as it is changes nothing. -/
theorem upd_self {α : Type} {n : Nat} (v : Vector α n) (i : Fin n) (f : α → α) (h : f v[i] = v[i]) : upd v i f = v := by
  apply table_ext
  intro j
  rw [upd_get]
  split
  · next g => rw [← g, h]
  · rfl

/-- The later of two writes of one entry stands. -/
theorem put_put {α : Type} {n : Nat} (v : Vector α n) (i : Fin n) (x y : α) : put (put v i x) i y = put v i y := by
  apply table_ext
  intro j
  simp only [put_get]
  split <;> rfl

/-- An entry written as it stands changes nothing. -/
theorem put_self {α : Type} {n : Nat} (v : Vector α n) (i : Fin n) (x : α) (h : v[i] = x) : put v i x = v := by
  apply table_ext
  intro j
  rw [put_get]
  split
  · next g => rw [← g, h]
  · rfl

end Sys2Proof
end

