-- ==== Sys2Proof/Laws/State.lean ====
section
/-! SUPPORT. What each plain write of the state leaves in each field: one lemma per field and write, true by definition,
so that no proof unfolds a record update. -/

namespace Sys2Proof.Machine

-- Theorems one after the other: side by side, their threads would not fit in the memory that one file may use.
set_option Elab.async false

open Sys2Proof

/-! ### setCall -/

@[simp] theorem State.setCall_ctl_calls (s : State) (c : CallId) (x : Option Call) :
    (s.setCall c x).ctl.calls = put s.ctl.calls c x := rfl

@[simp] theorem State.setCall_ctl_lines (s : State) (c : CallId) (x : Option Call) :
    (s.setCall c x).ctl.lines = s.ctl.lines := rfl

@[simp] theorem State.setCall_ctl_stamp (s : State) (c : CallId) (x : Option Call) :
    (s.setCall c x).ctl.stamp = s.ctl.stamp := rfl

@[simp] theorem State.setCall_ctl_floor (s : State) (c : CallId) (x : Option Call) :
    (s.setCall c x).ctl.floor = s.ctl.floor := rfl

@[simp] theorem State.setCall_dir (s : State) (c : CallId) (x : Option Call) :
    (s.setCall c x).dir = s.dir := rfl

@[simp] theorem State.setCall_arb (s : State) (c : CallId) (x : Option Call) :
    (s.setCall c x).arb = s.arb := rfl

@[simp] theorem State.setCall_ring (s : State) (c : CallId) (x : Option Call) :
    (s.setCall c x).ring = s.ring := rfl

@[simp] theorem State.setCall_desk (s : State) (c : CallId) (x : Option Call) :
    (s.setCall c x).desk = s.desk := rfl

@[simp] theorem State.setCall_risers (s : State) (c : CallId) (x : Option Call) :
    (s.setCall c x).risers = s.risers := rfl

@[simp] theorem State.setCall_links (s : State) (c : CallId) (x : Option Call) :
    (s.setCall c x).links = s.links := rfl

@[simp] theorem State.setCall_doors (s : State) (c : CallId) (x : Option Call) :
    (s.setCall c x).doors = s.doors := rfl

@[simp] theorem State.setCall_meas (s : State) (c : CallId) (x : Option Call) :
    (s.setCall c x).meas = s.meas := rfl

@[simp] theorem State.setCall_feeds (s : State) (c : CallId) (x : Option Call) :
    (s.setCall c x).feeds = s.feeds := rfl

@[simp] theorem State.setCall_supply (s : State) (c : CallId) (x : Option Call) :
    (s.setCall c x).supply = s.supply := rfl

@[simp] theorem State.setCall_mgmt (s : State) (c : CallId) (x : Option Call) :
    (s.setCall c x).mgmt = s.mgmt := rfl

@[simp] theorem State.setCall_store (s : State) (c : CallId) (x : Option Call) :
    (s.setCall c x).store = s.store := rfl

@[simp] theorem State.setCall_startup (s : State) (c : CallId) (x : Option Call) :
    (s.setCall c x).startup = s.startup := rfl

@[simp] theorem State.setCall_pending (s : State) (c : CallId) (x : Option Call) :
    (s.setCall c x).pending = s.pending := rfl

/-! ### putLine -/

@[simp] theorem State.putLine_ctl_calls (s : State) (h : Handset) (v : LineState) :
    (s.putLine h v).ctl.calls = s.ctl.calls := rfl

@[simp] theorem State.putLine_ctl_lines (s : State) (h : Handset) (v : LineState) :
    (s.putLine h v).ctl.lines = upd s.ctl.lines h.riser fun row => put row h.node v := rfl

@[simp] theorem State.putLine_ctl_stamp (s : State) (h : Handset) (v : LineState) :
    (s.putLine h v).ctl.stamp = s.ctl.stamp := rfl

@[simp] theorem State.putLine_ctl_floor (s : State) (h : Handset) (v : LineState) :
    (s.putLine h v).ctl.floor = s.ctl.floor := rfl

@[simp] theorem State.putLine_dir (s : State) (h : Handset) (v : LineState) :
    (s.putLine h v).dir = s.dir := rfl

@[simp] theorem State.putLine_arb (s : State) (h : Handset) (v : LineState) :
    (s.putLine h v).arb = s.arb := rfl

@[simp] theorem State.putLine_ring (s : State) (h : Handset) (v : LineState) :
    (s.putLine h v).ring = s.ring := rfl

@[simp] theorem State.putLine_desk (s : State) (h : Handset) (v : LineState) :
    (s.putLine h v).desk = s.desk := rfl

@[simp] theorem State.putLine_risers (s : State) (h : Handset) (v : LineState) :
    (s.putLine h v).risers = s.risers := rfl

@[simp] theorem State.putLine_links (s : State) (h : Handset) (v : LineState) :
    (s.putLine h v).links = s.links := rfl

@[simp] theorem State.putLine_doors (s : State) (h : Handset) (v : LineState) :
    (s.putLine h v).doors = s.doors := rfl

@[simp] theorem State.putLine_meas (s : State) (h : Handset) (v : LineState) :
    (s.putLine h v).meas = s.meas := rfl

@[simp] theorem State.putLine_feeds (s : State) (h : Handset) (v : LineState) :
    (s.putLine h v).feeds = s.feeds := rfl

@[simp] theorem State.putLine_supply (s : State) (h : Handset) (v : LineState) :
    (s.putLine h v).supply = s.supply := rfl

@[simp] theorem State.putLine_mgmt (s : State) (h : Handset) (v : LineState) :
    (s.putLine h v).mgmt = s.mgmt := rfl

@[simp] theorem State.putLine_store (s : State) (h : Handset) (v : LineState) :
    (s.putLine h v).store = s.store := rfl

@[simp] theorem State.putLine_startup (s : State) (h : Handset) (v : LineState) :
    (s.putLine h v).startup = s.startup := rfl

@[simp] theorem State.putLine_pending (s : State) (h : Handset) (v : LineState) :
    (s.putLine h v).pending = s.pending := rfl

/-! ### pushFloor -/

@[simp] theorem State.pushFloor_ctl_calls (s : State) (n : Nat) :
    (s.pushFloor n).ctl.calls = s.ctl.calls := rfl

@[simp] theorem State.pushFloor_ctl_lines (s : State) (n : Nat) :
    (s.pushFloor n).ctl.lines = s.ctl.lines := rfl

@[simp] theorem State.pushFloor_ctl_stamp (s : State) (n : Nat) :
    (s.pushFloor n).ctl.stamp = s.ctl.stamp := rfl

@[simp] theorem State.pushFloor_ctl_floor (s : State) (n : Nat) :
    (s.pushFloor n).ctl.floor = n := rfl

@[simp] theorem State.pushFloor_dir (s : State) (n : Nat) :
    (s.pushFloor n).dir = s.dir := rfl

@[simp] theorem State.pushFloor_arb (s : State) (n : Nat) :
    (s.pushFloor n).arb = s.arb := rfl

@[simp] theorem State.pushFloor_ring (s : State) (n : Nat) :
    (s.pushFloor n).ring = s.ring := rfl

@[simp] theorem State.pushFloor_desk (s : State) (n : Nat) :
    (s.pushFloor n).desk = s.desk := rfl

@[simp] theorem State.pushFloor_risers (s : State) (n : Nat) :
    (s.pushFloor n).risers = s.risers := rfl

@[simp] theorem State.pushFloor_links (s : State) (n : Nat) :
    (s.pushFloor n).links = s.links := rfl

@[simp] theorem State.pushFloor_doors (s : State) (n : Nat) :
    (s.pushFloor n).doors = s.doors := rfl

@[simp] theorem State.pushFloor_meas (s : State) (n : Nat) :
    (s.pushFloor n).meas = s.meas := rfl

@[simp] theorem State.pushFloor_feeds (s : State) (n : Nat) :
    (s.pushFloor n).feeds = s.feeds := rfl

@[simp] theorem State.pushFloor_supply (s : State) (n : Nat) :
    (s.pushFloor n).supply = s.supply := rfl

@[simp] theorem State.pushFloor_mgmt (s : State) (n : Nat) :
    (s.pushFloor n).mgmt = s.mgmt := rfl

@[simp] theorem State.pushFloor_store (s : State) (n : Nat) :
    (s.pushFloor n).store = s.store := rfl

@[simp] theorem State.pushFloor_startup (s : State) (n : Nat) :
    (s.pushFloor n).startup = s.startup := rfl

@[simp] theorem State.pushFloor_pending (s : State) (n : Nat) :
    (s.pushFloor n).pending = s.pending := rfl

/-! ### putEntry -/

@[simp] theorem State.putEntry_ctl (s : State) (i : DirIndex) (a : Option Apartment) :
    (s.putEntry i a).ctl = s.ctl := rfl

@[simp] theorem State.putEntry_dir_entries (s : State) (i : DirIndex) (a : Option Apartment) :
    (s.putEntry i a).dir.entries = put s.dir.entries i a := rfl

@[simp] theorem State.putEntry_dir_handsets (s : State) (i : DirIndex) (a : Option Apartment) :
    (s.putEntry i a).dir.handsets = s.dir.handsets := rfl

@[simp] theorem State.putEntry_dir_classes (s : State) (i : DirIndex) (a : Option Apartment) :
    (s.putEntry i a).dir.classes = s.dir.classes := rfl

@[simp] theorem State.putEntry_dir_profiles (s : State) (i : DirIndex) (a : Option Apartment) :
    (s.putEntry i a).dir.profiles = s.dir.profiles := rfl

@[simp] theorem State.putEntry_arb (s : State) (i : DirIndex) (a : Option Apartment) :
    (s.putEntry i a).arb = s.arb := rfl

@[simp] theorem State.putEntry_ring (s : State) (i : DirIndex) (a : Option Apartment) :
    (s.putEntry i a).ring = s.ring := rfl

@[simp] theorem State.putEntry_desk (s : State) (i : DirIndex) (a : Option Apartment) :
    (s.putEntry i a).desk = s.desk := rfl

@[simp] theorem State.putEntry_risers (s : State) (i : DirIndex) (a : Option Apartment) :
    (s.putEntry i a).risers = s.risers := rfl

@[simp] theorem State.putEntry_links (s : State) (i : DirIndex) (a : Option Apartment) :
    (s.putEntry i a).links = s.links := rfl

@[simp] theorem State.putEntry_doors (s : State) (i : DirIndex) (a : Option Apartment) :
    (s.putEntry i a).doors = s.doors := rfl

@[simp] theorem State.putEntry_meas (s : State) (i : DirIndex) (a : Option Apartment) :
    (s.putEntry i a).meas = s.meas := rfl

@[simp] theorem State.putEntry_feeds (s : State) (i : DirIndex) (a : Option Apartment) :
    (s.putEntry i a).feeds = s.feeds := rfl

@[simp] theorem State.putEntry_supply (s : State) (i : DirIndex) (a : Option Apartment) :
    (s.putEntry i a).supply = s.supply := rfl

@[simp] theorem State.putEntry_mgmt (s : State) (i : DirIndex) (a : Option Apartment) :
    (s.putEntry i a).mgmt = s.mgmt := rfl

@[simp] theorem State.putEntry_store (s : State) (i : DirIndex) (a : Option Apartment) :
    (s.putEntry i a).store = s.store := rfl

@[simp] theorem State.putEntry_startup (s : State) (i : DirIndex) (a : Option Apartment) :
    (s.putEntry i a).startup = s.startup := rfl

@[simp] theorem State.putEntry_pending (s : State) (i : DirIndex) (a : Option Apartment) :
    (s.putEntry i a).pending = s.pending := rfl

/-! ### putHandset -/

@[simp] theorem State.putHandset_ctl (s : State) (h : Handset) (x : HandsetEntry) :
    (s.putHandset h x).ctl = s.ctl := rfl

@[simp] theorem State.putHandset_dir_entries (s : State) (h : Handset) (x : HandsetEntry) :
    (s.putHandset h x).dir.entries = s.dir.entries := rfl

@[simp] theorem State.putHandset_dir_handsets (s : State) (h : Handset) (x : HandsetEntry) :
    (s.putHandset h x).dir.handsets = upd s.dir.handsets h.riser fun row => put row h.node x := rfl

@[simp] theorem State.putHandset_dir_classes (s : State) (h : Handset) (x : HandsetEntry) :
    (s.putHandset h x).dir.classes = s.dir.classes := rfl

@[simp] theorem State.putHandset_dir_profiles (s : State) (h : Handset) (x : HandsetEntry) :
    (s.putHandset h x).dir.profiles = s.dir.profiles := rfl

@[simp] theorem State.putHandset_arb (s : State) (h : Handset) (x : HandsetEntry) :
    (s.putHandset h x).arb = s.arb := rfl

@[simp] theorem State.putHandset_ring (s : State) (h : Handset) (x : HandsetEntry) :
    (s.putHandset h x).ring = s.ring := rfl

@[simp] theorem State.putHandset_desk (s : State) (h : Handset) (x : HandsetEntry) :
    (s.putHandset h x).desk = s.desk := rfl

@[simp] theorem State.putHandset_risers (s : State) (h : Handset) (x : HandsetEntry) :
    (s.putHandset h x).risers = s.risers := rfl

@[simp] theorem State.putHandset_links (s : State) (h : Handset) (x : HandsetEntry) :
    (s.putHandset h x).links = s.links := rfl

@[simp] theorem State.putHandset_doors (s : State) (h : Handset) (x : HandsetEntry) :
    (s.putHandset h x).doors = s.doors := rfl

@[simp] theorem State.putHandset_meas (s : State) (h : Handset) (x : HandsetEntry) :
    (s.putHandset h x).meas = s.meas := rfl

@[simp] theorem State.putHandset_feeds (s : State) (h : Handset) (x : HandsetEntry) :
    (s.putHandset h x).feeds = s.feeds := rfl

@[simp] theorem State.putHandset_supply (s : State) (h : Handset) (x : HandsetEntry) :
    (s.putHandset h x).supply = s.supply := rfl

@[simp] theorem State.putHandset_mgmt (s : State) (h : Handset) (x : HandsetEntry) :
    (s.putHandset h x).mgmt = s.mgmt := rfl

@[simp] theorem State.putHandset_store (s : State) (h : Handset) (x : HandsetEntry) :
    (s.putHandset h x).store = s.store := rfl

@[simp] theorem State.putHandset_startup (s : State) (h : Handset) (x : HandsetEntry) :
    (s.putHandset h x).startup = s.startup := rfl

@[simp] theorem State.putHandset_pending (s : State) (h : Handset) (x : HandsetEntry) :
    (s.putHandset h x).pending = s.pending := rfl

/-! ### putClass -/

@[simp] theorem State.putClass_ctl (s : State) (k : Fin 6) (x : ClassParams) :
    (s.putClass k x).ctl = s.ctl := rfl

@[simp] theorem State.putClass_dir_entries (s : State) (k : Fin 6) (x : ClassParams) :
    (s.putClass k x).dir.entries = s.dir.entries := rfl

@[simp] theorem State.putClass_dir_handsets (s : State) (k : Fin 6) (x : ClassParams) :
    (s.putClass k x).dir.handsets = s.dir.handsets := rfl

@[simp] theorem State.putClass_dir_classes (s : State) (k : Fin 6) (x : ClassParams) :
    (s.putClass k x).dir.classes = put s.dir.classes k x := rfl

@[simp] theorem State.putClass_dir_profiles (s : State) (k : Fin 6) (x : ClassParams) :
    (s.putClass k x).dir.profiles = s.dir.profiles := rfl

@[simp] theorem State.putClass_arb (s : State) (k : Fin 6) (x : ClassParams) :
    (s.putClass k x).arb = s.arb := rfl

@[simp] theorem State.putClass_ring (s : State) (k : Fin 6) (x : ClassParams) :
    (s.putClass k x).ring = s.ring := rfl

@[simp] theorem State.putClass_desk (s : State) (k : Fin 6) (x : ClassParams) :
    (s.putClass k x).desk = s.desk := rfl

@[simp] theorem State.putClass_risers (s : State) (k : Fin 6) (x : ClassParams) :
    (s.putClass k x).risers = s.risers := rfl

@[simp] theorem State.putClass_links (s : State) (k : Fin 6) (x : ClassParams) :
    (s.putClass k x).links = s.links := rfl

@[simp] theorem State.putClass_doors (s : State) (k : Fin 6) (x : ClassParams) :
    (s.putClass k x).doors = s.doors := rfl

@[simp] theorem State.putClass_meas (s : State) (k : Fin 6) (x : ClassParams) :
    (s.putClass k x).meas = s.meas := rfl

@[simp] theorem State.putClass_feeds (s : State) (k : Fin 6) (x : ClassParams) :
    (s.putClass k x).feeds = s.feeds := rfl

@[simp] theorem State.putClass_supply (s : State) (k : Fin 6) (x : ClassParams) :
    (s.putClass k x).supply = s.supply := rfl

@[simp] theorem State.putClass_mgmt (s : State) (k : Fin 6) (x : ClassParams) :
    (s.putClass k x).mgmt = s.mgmt := rfl

@[simp] theorem State.putClass_store (s : State) (k : Fin 6) (x : ClassParams) :
    (s.putClass k x).store = s.store := rfl

@[simp] theorem State.putClass_startup (s : State) (k : Fin 6) (x : ClassParams) :
    (s.putClass k x).startup = s.startup := rfl

@[simp] theorem State.putClass_pending (s : State) (k : Fin 6) (x : ClassParams) :
    (s.putClass k x).pending = s.pending := rfl

/-! ### putProfile -/

@[simp] theorem State.putProfile_ctl (s : State) (k : Fin 4) (x : Profile) :
    (s.putProfile k x).ctl = s.ctl := rfl

@[simp] theorem State.putProfile_dir_entries (s : State) (k : Fin 4) (x : Profile) :
    (s.putProfile k x).dir.entries = s.dir.entries := rfl

@[simp] theorem State.putProfile_dir_handsets (s : State) (k : Fin 4) (x : Profile) :
    (s.putProfile k x).dir.handsets = s.dir.handsets := rfl

@[simp] theorem State.putProfile_dir_classes (s : State) (k : Fin 4) (x : Profile) :
    (s.putProfile k x).dir.classes = s.dir.classes := rfl

@[simp] theorem State.putProfile_dir_profiles (s : State) (k : Fin 4) (x : Profile) :
    (s.putProfile k x).dir.profiles = put s.dir.profiles k x := rfl

@[simp] theorem State.putProfile_arb (s : State) (k : Fin 4) (x : Profile) :
    (s.putProfile k x).arb = s.arb := rfl

@[simp] theorem State.putProfile_ring (s : State) (k : Fin 4) (x : Profile) :
    (s.putProfile k x).ring = s.ring := rfl

@[simp] theorem State.putProfile_desk (s : State) (k : Fin 4) (x : Profile) :
    (s.putProfile k x).desk = s.desk := rfl

@[simp] theorem State.putProfile_risers (s : State) (k : Fin 4) (x : Profile) :
    (s.putProfile k x).risers = s.risers := rfl

@[simp] theorem State.putProfile_links (s : State) (k : Fin 4) (x : Profile) :
    (s.putProfile k x).links = s.links := rfl

@[simp] theorem State.putProfile_doors (s : State) (k : Fin 4) (x : Profile) :
    (s.putProfile k x).doors = s.doors := rfl

@[simp] theorem State.putProfile_meas (s : State) (k : Fin 4) (x : Profile) :
    (s.putProfile k x).meas = s.meas := rfl

@[simp] theorem State.putProfile_feeds (s : State) (k : Fin 4) (x : Profile) :
    (s.putProfile k x).feeds = s.feeds := rfl

@[simp] theorem State.putProfile_supply (s : State) (k : Fin 4) (x : Profile) :
    (s.putProfile k x).supply = s.supply := rfl

@[simp] theorem State.putProfile_mgmt (s : State) (k : Fin 4) (x : Profile) :
    (s.putProfile k x).mgmt = s.mgmt := rfl

@[simp] theorem State.putProfile_store (s : State) (k : Fin 4) (x : Profile) :
    (s.putProfile k x).store = s.store := rfl

@[simp] theorem State.putProfile_startup (s : State) (k : Fin 4) (x : Profile) :
    (s.putProfile k x).startup = s.startup := rfl

@[simp] theorem State.putProfile_pending (s : State) (k : Fin 4) (x : Profile) :
    (s.putProfile k x).pending = s.pending := rfl

/-! ### setPrivacy -/

@[simp] theorem State.setPrivacy_ctl (s : State) (i : DirIndex) (v : Bool) :
    (s.setPrivacy i v).ctl = s.ctl := rfl

@[simp] theorem State.setPrivacy_dir_entries (s : State) (i : DirIndex) (v : Bool) :
    (s.setPrivacy i v).dir.entries = upd s.dir.entries i (Option.map fun a => { a with hasPrivacy := v }) := rfl

@[simp] theorem State.setPrivacy_dir_handsets (s : State) (i : DirIndex) (v : Bool) :
    (s.setPrivacy i v).dir.handsets = s.dir.handsets := rfl

@[simp] theorem State.setPrivacy_dir_classes (s : State) (i : DirIndex) (v : Bool) :
    (s.setPrivacy i v).dir.classes = s.dir.classes := rfl

@[simp] theorem State.setPrivacy_dir_profiles (s : State) (i : DirIndex) (v : Bool) :
    (s.setPrivacy i v).dir.profiles = s.dir.profiles := rfl

@[simp] theorem State.setPrivacy_arb (s : State) (i : DirIndex) (v : Bool) :
    (s.setPrivacy i v).arb = s.arb := rfl

@[simp] theorem State.setPrivacy_ring (s : State) (i : DirIndex) (v : Bool) :
    (s.setPrivacy i v).ring = s.ring := rfl

@[simp] theorem State.setPrivacy_desk (s : State) (i : DirIndex) (v : Bool) :
    (s.setPrivacy i v).desk = s.desk := rfl

@[simp] theorem State.setPrivacy_risers (s : State) (i : DirIndex) (v : Bool) :
    (s.setPrivacy i v).risers = s.risers := rfl

@[simp] theorem State.setPrivacy_links (s : State) (i : DirIndex) (v : Bool) :
    (s.setPrivacy i v).links = s.links := rfl

@[simp] theorem State.setPrivacy_doors (s : State) (i : DirIndex) (v : Bool) :
    (s.setPrivacy i v).doors = s.doors := rfl

@[simp] theorem State.setPrivacy_meas (s : State) (i : DirIndex) (v : Bool) :
    (s.setPrivacy i v).meas = s.meas := rfl

@[simp] theorem State.setPrivacy_feeds (s : State) (i : DirIndex) (v : Bool) :
    (s.setPrivacy i v).feeds = s.feeds := rfl

@[simp] theorem State.setPrivacy_supply (s : State) (i : DirIndex) (v : Bool) :
    (s.setPrivacy i v).supply = s.supply := rfl

@[simp] theorem State.setPrivacy_mgmt (s : State) (i : DirIndex) (v : Bool) :
    (s.setPrivacy i v).mgmt = s.mgmt := rfl

@[simp] theorem State.setPrivacy_store (s : State) (i : DirIndex) (v : Bool) :
    (s.setPrivacy i v).store = s.store := rfl

@[simp] theorem State.setPrivacy_startup (s : State) (i : DirIndex) (v : Bool) :
    (s.setPrivacy i v).startup = s.startup := rfl

@[simp] theorem State.setPrivacy_pending (s : State) (i : DirIndex) (v : Bool) :
    (s.setPrivacy i v).pending = s.pending := rfl

/-! ### modSlots -/

@[simp] theorem State.modSlots_ctl (s : State) (r : Riser) (f : RiserSlots → RiserSlots) :
    (s.modSlots r f).ctl = s.ctl := rfl

@[simp] theorem State.modSlots_dir (s : State) (r : Riser) (f : RiserSlots → RiserSlots) :
    (s.modSlots r f).dir = s.dir := rfl

@[simp] theorem State.modSlots_arb_risers (s : State) (r : Riser) (f : RiserSlots → RiserSlots) :
    (s.modSlots r f).arb.risers = upd s.arb.risers r f := rfl

@[simp] theorem State.modSlots_arb_usable (s : State) (r : Riser) (f : RiserSlots → RiserSlots) :
    (s.modSlots r f).arb.usable = s.arb.usable := rfl

@[simp] theorem State.modSlots_arb_cross (s : State) (r : Riser) (f : RiserSlots → RiserSlots) :
    (s.modSlots r f).arb.cross = s.arb.cross := rfl

@[simp] theorem State.modSlots_arb_due (s : State) (r : Riser) (f : RiserSlots → RiserSlots) :
    (s.modSlots r f).arb.due = s.arb.due := rfl

@[simp] theorem State.modSlots_ring (s : State) (r : Riser) (f : RiserSlots → RiserSlots) :
    (s.modSlots r f).ring = s.ring := rfl

@[simp] theorem State.modSlots_desk (s : State) (r : Riser) (f : RiserSlots → RiserSlots) :
    (s.modSlots r f).desk = s.desk := rfl

@[simp] theorem State.modSlots_risers (s : State) (r : Riser) (f : RiserSlots → RiserSlots) :
    (s.modSlots r f).risers = s.risers := rfl

@[simp] theorem State.modSlots_links (s : State) (r : Riser) (f : RiserSlots → RiserSlots) :
    (s.modSlots r f).links = s.links := rfl

@[simp] theorem State.modSlots_doors (s : State) (r : Riser) (f : RiserSlots → RiserSlots) :
    (s.modSlots r f).doors = s.doors := rfl

@[simp] theorem State.modSlots_meas (s : State) (r : Riser) (f : RiserSlots → RiserSlots) :
    (s.modSlots r f).meas = s.meas := rfl

@[simp] theorem State.modSlots_feeds (s : State) (r : Riser) (f : RiserSlots → RiserSlots) :
    (s.modSlots r f).feeds = s.feeds := rfl

@[simp] theorem State.modSlots_supply (s : State) (r : Riser) (f : RiserSlots → RiserSlots) :
    (s.modSlots r f).supply = s.supply := rfl

@[simp] theorem State.modSlots_mgmt (s : State) (r : Riser) (f : RiserSlots → RiserSlots) :
    (s.modSlots r f).mgmt = s.mgmt := rfl

@[simp] theorem State.modSlots_store (s : State) (r : Riser) (f : RiserSlots → RiserSlots) :
    (s.modSlots r f).store = s.store := rfl

@[simp] theorem State.modSlots_startup (s : State) (r : Riser) (f : RiserSlots → RiserSlots) :
    (s.modSlots r f).startup = s.startup := rfl

@[simp] theorem State.modSlots_pending (s : State) (r : Riser) (f : RiserSlots → RiserSlots) :
    (s.modSlots r f).pending = s.pending := rfl

/-! ### setCross -/

@[simp] theorem State.setCross_ctl (s : State) (xs : List Connection) :
    (s.setCross xs).ctl = s.ctl := rfl

@[simp] theorem State.setCross_dir (s : State) (xs : List Connection) :
    (s.setCross xs).dir = s.dir := rfl

@[simp] theorem State.setCross_arb_risers (s : State) (xs : List Connection) :
    (s.setCross xs).arb.risers = s.arb.risers := rfl

@[simp] theorem State.setCross_arb_usable (s : State) (xs : List Connection) :
    (s.setCross xs).arb.usable = s.arb.usable := rfl

@[simp] theorem State.setCross_arb_cross (s : State) (xs : List Connection) :
    (s.setCross xs).arb.cross = xs := rfl

@[simp] theorem State.setCross_arb_due (s : State) (xs : List Connection) :
    (s.setCross xs).arb.due = s.arb.due := rfl

@[simp] theorem State.setCross_ring (s : State) (xs : List Connection) :
    (s.setCross xs).ring = s.ring := rfl

@[simp] theorem State.setCross_desk (s : State) (xs : List Connection) :
    (s.setCross xs).desk = s.desk := rfl

@[simp] theorem State.setCross_risers (s : State) (xs : List Connection) :
    (s.setCross xs).risers = s.risers := rfl

@[simp] theorem State.setCross_links (s : State) (xs : List Connection) :
    (s.setCross xs).links = s.links := rfl

@[simp] theorem State.setCross_doors (s : State) (xs : List Connection) :
    (s.setCross xs).doors = s.doors := rfl

@[simp] theorem State.setCross_meas (s : State) (xs : List Connection) :
    (s.setCross xs).meas = s.meas := rfl

@[simp] theorem State.setCross_feeds (s : State) (xs : List Connection) :
    (s.setCross xs).feeds = s.feeds := rfl

@[simp] theorem State.setCross_supply (s : State) (xs : List Connection) :
    (s.setCross xs).supply = s.supply := rfl

@[simp] theorem State.setCross_mgmt (s : State) (xs : List Connection) :
    (s.setCross xs).mgmt = s.mgmt := rfl

@[simp] theorem State.setCross_store (s : State) (xs : List Connection) :
    (s.setCross xs).store = s.store := rfl

@[simp] theorem State.setCross_startup (s : State) (xs : List Connection) :
    (s.setCross xs).startup = s.startup := rfl

@[simp] theorem State.setCross_pending (s : State) (xs : List Connection) :
    (s.setCross xs).pending = s.pending := rfl

/-! ### clearDue -/

@[simp] theorem State.clearDue_ctl (s : State) :
    (s.clearDue).ctl = s.ctl := rfl

@[simp] theorem State.clearDue_dir (s : State) :
    (s.clearDue).dir = s.dir := rfl

@[simp] theorem State.clearDue_arb_risers (s : State) :
    (s.clearDue).arb.risers = s.arb.risers := rfl

@[simp] theorem State.clearDue_arb_usable (s : State) :
    (s.clearDue).arb.usable = s.arb.usable := rfl

@[simp] theorem State.clearDue_arb_cross (s : State) :
    (s.clearDue).arb.cross = s.arb.cross := rfl

@[simp] theorem State.clearDue_arb_due (s : State) :
    (s.clearDue).arb.due = [] := rfl

@[simp] theorem State.clearDue_ring (s : State) :
    (s.clearDue).ring = s.ring := rfl

@[simp] theorem State.clearDue_desk (s : State) :
    (s.clearDue).desk = s.desk := rfl

@[simp] theorem State.clearDue_risers (s : State) :
    (s.clearDue).risers = s.risers := rfl

@[simp] theorem State.clearDue_links (s : State) :
    (s.clearDue).links = s.links := rfl

@[simp] theorem State.clearDue_doors (s : State) :
    (s.clearDue).doors = s.doors := rfl

@[simp] theorem State.clearDue_meas (s : State) :
    (s.clearDue).meas = s.meas := rfl

@[simp] theorem State.clearDue_feeds (s : State) :
    (s.clearDue).feeds = s.feeds := rfl

@[simp] theorem State.clearDue_supply (s : State) :
    (s.clearDue).supply = s.supply := rfl

@[simp] theorem State.clearDue_mgmt (s : State) :
    (s.clearDue).mgmt = s.mgmt := rfl

@[simp] theorem State.clearDue_store (s : State) :
    (s.clearDue).store = s.store := rfl

@[simp] theorem State.clearDue_startup (s : State) :
    (s.clearDue).startup = s.startup := rfl

@[simp] theorem State.clearDue_pending (s : State) :
    (s.clearDue).pending = s.pending := rfl

/-! ### setSounding -/

@[simp] theorem State.setSounding_ctl (s : State) (r : Riser) (xs : List Sounding) :
    (s.setSounding r xs).ctl = s.ctl := rfl

@[simp] theorem State.setSounding_dir (s : State) (r : Riser) (xs : List Sounding) :
    (s.setSounding r xs).dir = s.dir := rfl

@[simp] theorem State.setSounding_arb (s : State) (r : Riser) (xs : List Sounding) :
    (s.setSounding r xs).arb = s.arb := rfl

@[simp] theorem State.setSounding_ring_sounding (s : State) (r : Riser) (xs : List Sounding) :
    (s.setSounding r xs).ring.sounding = put s.ring.sounding r xs := rfl

@[simp] theorem State.setSounding_ring_percent (s : State) (r : Riser) (xs : List Sounding) :
    (s.setSounding r xs).ring.percent = s.ring.percent := rfl

@[simp] theorem State.setSounding_desk (s : State) (r : Riser) (xs : List Sounding) :
    (s.setSounding r xs).desk = s.desk := rfl

@[simp] theorem State.setSounding_risers (s : State) (r : Riser) (xs : List Sounding) :
    (s.setSounding r xs).risers = s.risers := rfl

@[simp] theorem State.setSounding_links (s : State) (r : Riser) (xs : List Sounding) :
    (s.setSounding r xs).links = s.links := rfl

@[simp] theorem State.setSounding_doors (s : State) (r : Riser) (xs : List Sounding) :
    (s.setSounding r xs).doors = s.doors := rfl

@[simp] theorem State.setSounding_meas (s : State) (r : Riser) (xs : List Sounding) :
    (s.setSounding r xs).meas = s.meas := rfl

@[simp] theorem State.setSounding_feeds (s : State) (r : Riser) (xs : List Sounding) :
    (s.setSounding r xs).feeds = s.feeds := rfl

@[simp] theorem State.setSounding_supply (s : State) (r : Riser) (xs : List Sounding) :
    (s.setSounding r xs).supply = s.supply := rfl

@[simp] theorem State.setSounding_mgmt (s : State) (r : Riser) (xs : List Sounding) :
    (s.setSounding r xs).mgmt = s.mgmt := rfl

@[simp] theorem State.setSounding_store (s : State) (r : Riser) (xs : List Sounding) :
    (s.setSounding r xs).store = s.store := rfl

@[simp] theorem State.setSounding_startup (s : State) (r : Riser) (xs : List Sounding) :
    (s.setSounding r xs).startup = s.startup := rfl

@[simp] theorem State.setSounding_pending (s : State) (r : Riser) (xs : List Sounding) :
    (s.setSounding r xs).pending = s.pending := rfl

/-! ### setConsole -/

@[simp] theorem State.setConsole_ctl (s : State) (l : LineNo) (v : ConsoleLine) :
    (s.setConsole l v).ctl = s.ctl := rfl

@[simp] theorem State.setConsole_dir (s : State) (l : LineNo) (v : ConsoleLine) :
    (s.setConsole l v).dir = s.dir := rfl

@[simp] theorem State.setConsole_arb (s : State) (l : LineNo) (v : ConsoleLine) :
    (s.setConsole l v).arb = s.arb := rfl

@[simp] theorem State.setConsole_ring (s : State) (l : LineNo) (v : ConsoleLine) :
    (s.setConsole l v).ring = s.ring := rfl

@[simp] theorem State.setConsole_desk_isOpen (s : State) (l : LineNo) (v : ConsoleLine) :
    (s.setConsole l v).desk.isOpen = s.desk.isOpen := rfl

@[simp] theorem State.setConsole_desk_lines (s : State) (l : LineNo) (v : ConsoleLine) :
    (s.setConsole l v).desk.lines = put s.desk.lines l v := rfl

@[simp] theorem State.setConsole_desk_queue (s : State) (l : LineNo) (v : ConsoleLine) :
    (s.setConsole l v).desk.queue = s.desk.queue := rfl

@[simp] theorem State.setConsole_risers (s : State) (l : LineNo) (v : ConsoleLine) :
    (s.setConsole l v).risers = s.risers := rfl

@[simp] theorem State.setConsole_links (s : State) (l : LineNo) (v : ConsoleLine) :
    (s.setConsole l v).links = s.links := rfl

@[simp] theorem State.setConsole_doors (s : State) (l : LineNo) (v : ConsoleLine) :
    (s.setConsole l v).doors = s.doors := rfl

@[simp] theorem State.setConsole_meas (s : State) (l : LineNo) (v : ConsoleLine) :
    (s.setConsole l v).meas = s.meas := rfl

@[simp] theorem State.setConsole_feeds (s : State) (l : LineNo) (v : ConsoleLine) :
    (s.setConsole l v).feeds = s.feeds := rfl

@[simp] theorem State.setConsole_supply (s : State) (l : LineNo) (v : ConsoleLine) :
    (s.setConsole l v).supply = s.supply := rfl

@[simp] theorem State.setConsole_mgmt (s : State) (l : LineNo) (v : ConsoleLine) :
    (s.setConsole l v).mgmt = s.mgmt := rfl

@[simp] theorem State.setConsole_store (s : State) (l : LineNo) (v : ConsoleLine) :
    (s.setConsole l v).store = s.store := rfl

@[simp] theorem State.setConsole_startup (s : State) (l : LineNo) (v : ConsoleLine) :
    (s.setConsole l v).startup = s.startup := rfl

@[simp] theorem State.setConsole_pending (s : State) (l : LineNo) (v : ConsoleLine) :
    (s.setConsole l v).pending = s.pending := rfl

/-! ### setDeskQueue -/

@[simp] theorem State.setDeskQueue_ctl (s : State) (q : List CallId) :
    (s.setDeskQueue q).ctl = s.ctl := rfl

@[simp] theorem State.setDeskQueue_dir (s : State) (q : List CallId) :
    (s.setDeskQueue q).dir = s.dir := rfl

@[simp] theorem State.setDeskQueue_arb (s : State) (q : List CallId) :
    (s.setDeskQueue q).arb = s.arb := rfl

@[simp] theorem State.setDeskQueue_ring (s : State) (q : List CallId) :
    (s.setDeskQueue q).ring = s.ring := rfl

@[simp] theorem State.setDeskQueue_desk_isOpen (s : State) (q : List CallId) :
    (s.setDeskQueue q).desk.isOpen = s.desk.isOpen := rfl

@[simp] theorem State.setDeskQueue_desk_lines (s : State) (q : List CallId) :
    (s.setDeskQueue q).desk.lines = s.desk.lines := rfl

@[simp] theorem State.setDeskQueue_desk_queue (s : State) (q : List CallId) :
    (s.setDeskQueue q).desk.queue = q := rfl

@[simp] theorem State.setDeskQueue_risers (s : State) (q : List CallId) :
    (s.setDeskQueue q).risers = s.risers := rfl

@[simp] theorem State.setDeskQueue_links (s : State) (q : List CallId) :
    (s.setDeskQueue q).links = s.links := rfl

@[simp] theorem State.setDeskQueue_doors (s : State) (q : List CallId) :
    (s.setDeskQueue q).doors = s.doors := rfl

@[simp] theorem State.setDeskQueue_meas (s : State) (q : List CallId) :
    (s.setDeskQueue q).meas = s.meas := rfl

@[simp] theorem State.setDeskQueue_feeds (s : State) (q : List CallId) :
    (s.setDeskQueue q).feeds = s.feeds := rfl

@[simp] theorem State.setDeskQueue_supply (s : State) (q : List CallId) :
    (s.setDeskQueue q).supply = s.supply := rfl

@[simp] theorem State.setDeskQueue_mgmt (s : State) (q : List CallId) :
    (s.setDeskQueue q).mgmt = s.mgmt := rfl

@[simp] theorem State.setDeskQueue_store (s : State) (q : List CallId) :
    (s.setDeskQueue q).store = s.store := rfl

@[simp] theorem State.setDeskQueue_startup (s : State) (q : List CallId) :
    (s.setDeskQueue q).startup = s.startup := rfl

@[simp] theorem State.setDeskQueue_pending (s : State) (q : List CallId) :
    (s.setDeskQueue q).pending = s.pending := rfl

/-! ### openDesk -/

@[simp] theorem State.openDesk_ctl (s : State) :
    (s.openDesk).ctl = s.ctl := rfl

@[simp] theorem State.openDesk_dir (s : State) :
    (s.openDesk).dir = s.dir := rfl

@[simp] theorem State.openDesk_arb (s : State) :
    (s.openDesk).arb = s.arb := rfl

@[simp] theorem State.openDesk_ring (s : State) :
    (s.openDesk).ring = s.ring := rfl

@[simp] theorem State.openDesk_desk_isOpen (s : State) :
    (s.openDesk).desk.isOpen = true := rfl

@[simp] theorem State.openDesk_desk_lines (s : State) :
    (s.openDesk).desk.lines = s.desk.lines := rfl

@[simp] theorem State.openDesk_desk_queue (s : State) :
    (s.openDesk).desk.queue = s.desk.queue := rfl

@[simp] theorem State.openDesk_risers (s : State) :
    (s.openDesk).risers = s.risers := rfl

@[simp] theorem State.openDesk_links (s : State) :
    (s.openDesk).links = s.links := rfl

@[simp] theorem State.openDesk_doors (s : State) :
    (s.openDesk).doors = s.doors := rfl

@[simp] theorem State.openDesk_meas (s : State) :
    (s.openDesk).meas = s.meas := rfl

@[simp] theorem State.openDesk_feeds (s : State) :
    (s.openDesk).feeds = s.feeds := rfl

@[simp] theorem State.openDesk_supply (s : State) :
    (s.openDesk).supply = s.supply := rfl

@[simp] theorem State.openDesk_mgmt (s : State) :
    (s.openDesk).mgmt = s.mgmt := rfl

@[simp] theorem State.openDesk_store (s : State) :
    (s.openDesk).store = s.store := rfl

@[simp] theorem State.openDesk_startup (s : State) :
    (s.openDesk).startup = s.startup := rfl

@[simp] theorem State.openDesk_pending (s : State) :
    (s.openDesk).pending = s.pending := rfl

/-! ### modRiser -/

@[simp] theorem State.modRiser_ctl (s : State) (r : Riser) (f : RiserControl → RiserControl) :
    (s.modRiser r f).ctl = s.ctl := rfl

@[simp] theorem State.modRiser_dir (s : State) (r : Riser) (f : RiserControl → RiserControl) :
    (s.modRiser r f).dir = s.dir := rfl

@[simp] theorem State.modRiser_arb (s : State) (r : Riser) (f : RiserControl → RiserControl) :
    (s.modRiser r f).arb = s.arb := rfl

@[simp] theorem State.modRiser_ring (s : State) (r : Riser) (f : RiserControl → RiserControl) :
    (s.modRiser r f).ring = s.ring := rfl

@[simp] theorem State.modRiser_desk (s : State) (r : Riser) (f : RiserControl → RiserControl) :
    (s.modRiser r f).desk = s.desk := rfl

@[simp] theorem State.modRiser_risers (s : State) (r : Riser) (f : RiserControl → RiserControl) :
    (s.modRiser r f).risers = upd s.risers r f := rfl

@[simp] theorem State.modRiser_links (s : State) (r : Riser) (f : RiserControl → RiserControl) :
    (s.modRiser r f).links = s.links := rfl

@[simp] theorem State.modRiser_doors (s : State) (r : Riser) (f : RiserControl → RiserControl) :
    (s.modRiser r f).doors = s.doors := rfl

@[simp] theorem State.modRiser_meas (s : State) (r : Riser) (f : RiserControl → RiserControl) :
    (s.modRiser r f).meas = s.meas := rfl

@[simp] theorem State.modRiser_feeds (s : State) (r : Riser) (f : RiserControl → RiserControl) :
    (s.modRiser r f).feeds = s.feeds := rfl

@[simp] theorem State.modRiser_supply (s : State) (r : Riser) (f : RiserControl → RiserControl) :
    (s.modRiser r f).supply = s.supply := rfl

@[simp] theorem State.modRiser_mgmt (s : State) (r : Riser) (f : RiserControl → RiserControl) :
    (s.modRiser r f).mgmt = s.mgmt := rfl

@[simp] theorem State.modRiser_store (s : State) (r : Riser) (f : RiserControl → RiserControl) :
    (s.modRiser r f).store = s.store := rfl

@[simp] theorem State.modRiser_startup (s : State) (r : Riser) (f : RiserControl → RiserControl) :
    (s.modRiser r f).startup = s.startup := rfl

@[simp] theorem State.modRiser_pending (s : State) (r : Riser) (f : RiserControl → RiserControl) :
    (s.modRiser r f).pending = s.pending := rfl

/-! ### pushPause -/

@[simp] theorem State.pushPause_ctl (s : State) (ms : Nat) :
    (s.pushPause ms).ctl = s.ctl := rfl

@[simp] theorem State.pushPause_dir (s : State) (ms : Nat) :
    (s.pushPause ms).dir = s.dir := rfl

@[simp] theorem State.pushPause_arb (s : State) (ms : Nat) :
    (s.pushPause ms).arb = s.arb := rfl

@[simp] theorem State.pushPause_ring (s : State) (ms : Nat) :
    (s.pushPause ms).ring = s.ring := rfl

@[simp] theorem State.pushPause_desk (s : State) (ms : Nat) :
    (s.pushPause ms).desk = s.desk := rfl

@[simp] theorem State.pushPause_risers (s : State) (ms : Nat) :
    (s.pushPause ms).risers = updAll s.risers fun _ u => { u with pause := ms } := rfl

@[simp] theorem State.pushPause_links (s : State) (ms : Nat) :
    (s.pushPause ms).links = s.links := rfl

@[simp] theorem State.pushPause_doors (s : State) (ms : Nat) :
    (s.pushPause ms).doors = s.doors := rfl

@[simp] theorem State.pushPause_meas (s : State) (ms : Nat) :
    (s.pushPause ms).meas = s.meas := rfl

@[simp] theorem State.pushPause_feeds (s : State) (ms : Nat) :
    (s.pushPause ms).feeds = s.feeds := rfl

@[simp] theorem State.pushPause_supply (s : State) (ms : Nat) :
    (s.pushPause ms).supply = s.supply := rfl

@[simp] theorem State.pushPause_mgmt (s : State) (ms : Nat) :
    (s.pushPause ms).mgmt = s.mgmt := rfl

@[simp] theorem State.pushPause_store (s : State) (ms : Nat) :
    (s.pushPause ms).store = s.store := rfl

@[simp] theorem State.pushPause_startup (s : State) (ms : Nat) :
    (s.pushPause ms).startup = s.startup := rfl

@[simp] theorem State.pushPause_pending (s : State) (ms : Nat) :
    (s.pushPause ms).pending = s.pending := rfl

/-! ### modLink -/

@[simp] theorem State.modLink_ctl (s : State) (l : Link) (f : LinkUnit → LinkUnit) :
    (s.modLink l f).ctl = s.ctl := rfl

@[simp] theorem State.modLink_dir (s : State) (l : Link) (f : LinkUnit → LinkUnit) :
    (s.modLink l f).dir = s.dir := rfl

@[simp] theorem State.modLink_arb (s : State) (l : Link) (f : LinkUnit → LinkUnit) :
    (s.modLink l f).arb = s.arb := rfl

@[simp] theorem State.modLink_ring (s : State) (l : Link) (f : LinkUnit → LinkUnit) :
    (s.modLink l f).ring = s.ring := rfl

@[simp] theorem State.modLink_desk (s : State) (l : Link) (f : LinkUnit → LinkUnit) :
    (s.modLink l f).desk = s.desk := rfl

@[simp] theorem State.modLink_risers (s : State) (l : Link) (f : LinkUnit → LinkUnit) :
    (s.modLink l f).risers = s.risers := rfl

@[simp] theorem State.modLink_links (s : State) (l : Link) (f : LinkUnit → LinkUnit) :
    (s.modLink l f).links = upd s.links (linkIndex l) f := rfl

@[simp] theorem State.modLink_doors (s : State) (l : Link) (f : LinkUnit → LinkUnit) :
    (s.modLink l f).doors = s.doors := rfl

@[simp] theorem State.modLink_meas (s : State) (l : Link) (f : LinkUnit → LinkUnit) :
    (s.modLink l f).meas = s.meas := rfl

@[simp] theorem State.modLink_feeds (s : State) (l : Link) (f : LinkUnit → LinkUnit) :
    (s.modLink l f).feeds = s.feeds := rfl

@[simp] theorem State.modLink_supply (s : State) (l : Link) (f : LinkUnit → LinkUnit) :
    (s.modLink l f).supply = s.supply := rfl

@[simp] theorem State.modLink_mgmt (s : State) (l : Link) (f : LinkUnit → LinkUnit) :
    (s.modLink l f).mgmt = s.mgmt := rfl

@[simp] theorem State.modLink_store (s : State) (l : Link) (f : LinkUnit → LinkUnit) :
    (s.modLink l f).store = s.store := rfl

@[simp] theorem State.modLink_startup (s : State) (l : Link) (f : LinkUnit → LinkUnit) :
    (s.modLink l f).startup = s.startup := rfl

@[simp] theorem State.modLink_pending (s : State) (l : Link) (f : LinkUnit → LinkUnit) :
    (s.modLink l f).pending = s.pending := rfl

/-! ### modDoor -/

@[simp] theorem State.modDoor_ctl (s : State) (e : Entrance) (f : DoorUnit → DoorUnit) :
    (s.modDoor e f).ctl = s.ctl := rfl

@[simp] theorem State.modDoor_dir (s : State) (e : Entrance) (f : DoorUnit → DoorUnit) :
    (s.modDoor e f).dir = s.dir := rfl

@[simp] theorem State.modDoor_arb (s : State) (e : Entrance) (f : DoorUnit → DoorUnit) :
    (s.modDoor e f).arb = s.arb := rfl

@[simp] theorem State.modDoor_ring (s : State) (e : Entrance) (f : DoorUnit → DoorUnit) :
    (s.modDoor e f).ring = s.ring := rfl

@[simp] theorem State.modDoor_desk (s : State) (e : Entrance) (f : DoorUnit → DoorUnit) :
    (s.modDoor e f).desk = s.desk := rfl

@[simp] theorem State.modDoor_risers (s : State) (e : Entrance) (f : DoorUnit → DoorUnit) :
    (s.modDoor e f).risers = s.risers := rfl

@[simp] theorem State.modDoor_links (s : State) (e : Entrance) (f : DoorUnit → DoorUnit) :
    (s.modDoor e f).links = s.links := rfl

@[simp] theorem State.modDoor_doors (s : State) (e : Entrance) (f : DoorUnit → DoorUnit) :
    (s.modDoor e f).doors = upd s.doors e f := rfl

@[simp] theorem State.modDoor_meas (s : State) (e : Entrance) (f : DoorUnit → DoorUnit) :
    (s.modDoor e f).meas = s.meas := rfl

@[simp] theorem State.modDoor_feeds (s : State) (e : Entrance) (f : DoorUnit → DoorUnit) :
    (s.modDoor e f).feeds = s.feeds := rfl

@[simp] theorem State.modDoor_supply (s : State) (e : Entrance) (f : DoorUnit → DoorUnit) :
    (s.modDoor e f).supply = s.supply := rfl

@[simp] theorem State.modDoor_mgmt (s : State) (e : Entrance) (f : DoorUnit → DoorUnit) :
    (s.modDoor e f).mgmt = s.mgmt := rfl

@[simp] theorem State.modDoor_store (s : State) (e : Entrance) (f : DoorUnit → DoorUnit) :
    (s.modDoor e f).store = s.store := rfl

@[simp] theorem State.modDoor_startup (s : State) (e : Entrance) (f : DoorUnit → DoorUnit) :
    (s.modDoor e f).startup = s.startup := rfl

@[simp] theorem State.modDoor_pending (s : State) (e : Entrance) (f : DoorUnit → DoorUnit) :
    (s.modDoor e f).pending = s.pending := rfl

/-! ### modVoltage -/

@[simp] theorem State.modVoltage_ctl (s : State) (r : Riser) (f : Channel → Channel) :
    (s.modVoltage r f).ctl = s.ctl := rfl

@[simp] theorem State.modVoltage_dir (s : State) (r : Riser) (f : Channel → Channel) :
    (s.modVoltage r f).dir = s.dir := rfl

@[simp] theorem State.modVoltage_arb (s : State) (r : Riser) (f : Channel → Channel) :
    (s.modVoltage r f).arb = s.arb := rfl

@[simp] theorem State.modVoltage_ring (s : State) (r : Riser) (f : Channel → Channel) :
    (s.modVoltage r f).ring = s.ring := rfl

@[simp] theorem State.modVoltage_desk (s : State) (r : Riser) (f : Channel → Channel) :
    (s.modVoltage r f).desk = s.desk := rfl

@[simp] theorem State.modVoltage_risers (s : State) (r : Riser) (f : Channel → Channel) :
    (s.modVoltage r f).risers = s.risers := rfl

@[simp] theorem State.modVoltage_links (s : State) (r : Riser) (f : Channel → Channel) :
    (s.modVoltage r f).links = s.links := rfl

@[simp] theorem State.modVoltage_doors (s : State) (r : Riser) (f : Channel → Channel) :
    (s.modVoltage r f).doors = s.doors := rfl

@[simp] theorem State.modVoltage_meas_voltage (s : State) (r : Riser) (f : Channel → Channel) :
    (s.modVoltage r f).meas.voltage = upd s.meas.voltage r f := rfl

@[simp] theorem State.modVoltage_meas_current (s : State) (r : Riser) (f : Channel → Channel) :
    (s.modVoltage r f).meas.current = s.meas.current := rfl

@[simp] theorem State.modVoltage_meas_battery (s : State) (r : Riser) (f : Channel → Channel) :
    (s.modVoltage r f).meas.battery = s.meas.battery := rfl

@[simp] theorem State.modVoltage_feeds (s : State) (r : Riser) (f : Channel → Channel) :
    (s.modVoltage r f).feeds = s.feeds := rfl

@[simp] theorem State.modVoltage_supply (s : State) (r : Riser) (f : Channel → Channel) :
    (s.modVoltage r f).supply = s.supply := rfl

@[simp] theorem State.modVoltage_mgmt (s : State) (r : Riser) (f : Channel → Channel) :
    (s.modVoltage r f).mgmt = s.mgmt := rfl

@[simp] theorem State.modVoltage_store (s : State) (r : Riser) (f : Channel → Channel) :
    (s.modVoltage r f).store = s.store := rfl

@[simp] theorem State.modVoltage_startup (s : State) (r : Riser) (f : Channel → Channel) :
    (s.modVoltage r f).startup = s.startup := rfl

@[simp] theorem State.modVoltage_pending (s : State) (r : Riser) (f : Channel → Channel) :
    (s.modVoltage r f).pending = s.pending := rfl

/-! ### modCurrent -/

@[simp] theorem State.modCurrent_ctl (s : State) (r : Riser) (f : Channel → Channel) :
    (s.modCurrent r f).ctl = s.ctl := rfl

@[simp] theorem State.modCurrent_dir (s : State) (r : Riser) (f : Channel → Channel) :
    (s.modCurrent r f).dir = s.dir := rfl

@[simp] theorem State.modCurrent_arb (s : State) (r : Riser) (f : Channel → Channel) :
    (s.modCurrent r f).arb = s.arb := rfl

@[simp] theorem State.modCurrent_ring (s : State) (r : Riser) (f : Channel → Channel) :
    (s.modCurrent r f).ring = s.ring := rfl

@[simp] theorem State.modCurrent_desk (s : State) (r : Riser) (f : Channel → Channel) :
    (s.modCurrent r f).desk = s.desk := rfl

@[simp] theorem State.modCurrent_risers (s : State) (r : Riser) (f : Channel → Channel) :
    (s.modCurrent r f).risers = s.risers := rfl

@[simp] theorem State.modCurrent_links (s : State) (r : Riser) (f : Channel → Channel) :
    (s.modCurrent r f).links = s.links := rfl

@[simp] theorem State.modCurrent_doors (s : State) (r : Riser) (f : Channel → Channel) :
    (s.modCurrent r f).doors = s.doors := rfl

@[simp] theorem State.modCurrent_meas_voltage (s : State) (r : Riser) (f : Channel → Channel) :
    (s.modCurrent r f).meas.voltage = s.meas.voltage := rfl

@[simp] theorem State.modCurrent_meas_current (s : State) (r : Riser) (f : Channel → Channel) :
    (s.modCurrent r f).meas.current = upd s.meas.current r f := rfl

@[simp] theorem State.modCurrent_meas_battery (s : State) (r : Riser) (f : Channel → Channel) :
    (s.modCurrent r f).meas.battery = s.meas.battery := rfl

@[simp] theorem State.modCurrent_feeds (s : State) (r : Riser) (f : Channel → Channel) :
    (s.modCurrent r f).feeds = s.feeds := rfl

@[simp] theorem State.modCurrent_supply (s : State) (r : Riser) (f : Channel → Channel) :
    (s.modCurrent r f).supply = s.supply := rfl

@[simp] theorem State.modCurrent_mgmt (s : State) (r : Riser) (f : Channel → Channel) :
    (s.modCurrent r f).mgmt = s.mgmt := rfl

@[simp] theorem State.modCurrent_store (s : State) (r : Riser) (f : Channel → Channel) :
    (s.modCurrent r f).store = s.store := rfl

@[simp] theorem State.modCurrent_startup (s : State) (r : Riser) (f : Channel → Channel) :
    (s.modCurrent r f).startup = s.startup := rfl

@[simp] theorem State.modCurrent_pending (s : State) (r : Riser) (f : Channel → Channel) :
    (s.modCurrent r f).pending = s.pending := rfl

/-! ### modFeed -/

@[simp] theorem State.modFeed_ctl (s : State) (r : Riser) (f : Feed → Feed) :
    (s.modFeed r f).ctl = s.ctl := rfl

@[simp] theorem State.modFeed_dir (s : State) (r : Riser) (f : Feed → Feed) :
    (s.modFeed r f).dir = s.dir := rfl

@[simp] theorem State.modFeed_arb (s : State) (r : Riser) (f : Feed → Feed) :
    (s.modFeed r f).arb = s.arb := rfl

@[simp] theorem State.modFeed_ring (s : State) (r : Riser) (f : Feed → Feed) :
    (s.modFeed r f).ring = s.ring := rfl

@[simp] theorem State.modFeed_desk (s : State) (r : Riser) (f : Feed → Feed) :
    (s.modFeed r f).desk = s.desk := rfl

@[simp] theorem State.modFeed_risers (s : State) (r : Riser) (f : Feed → Feed) :
    (s.modFeed r f).risers = s.risers := rfl

@[simp] theorem State.modFeed_links (s : State) (r : Riser) (f : Feed → Feed) :
    (s.modFeed r f).links = s.links := rfl

@[simp] theorem State.modFeed_doors (s : State) (r : Riser) (f : Feed → Feed) :
    (s.modFeed r f).doors = s.doors := rfl

@[simp] theorem State.modFeed_meas (s : State) (r : Riser) (f : Feed → Feed) :
    (s.modFeed r f).meas = s.meas := rfl

@[simp] theorem State.modFeed_feeds (s : State) (r : Riser) (f : Feed → Feed) :
    (s.modFeed r f).feeds = upd s.feeds r f := rfl

@[simp] theorem State.modFeed_supply (s : State) (r : Riser) (f : Feed → Feed) :
    (s.modFeed r f).supply = s.supply := rfl

@[simp] theorem State.modFeed_mgmt (s : State) (r : Riser) (f : Feed → Feed) :
    (s.modFeed r f).mgmt = s.mgmt := rfl

@[simp] theorem State.modFeed_store (s : State) (r : Riser) (f : Feed → Feed) :
    (s.modFeed r f).store = s.store := rfl

@[simp] theorem State.modFeed_startup (s : State) (r : Riser) (f : Feed → Feed) :
    (s.modFeed r f).startup = s.startup := rfl

@[simp] theorem State.modFeed_pending (s : State) (r : Riser) (f : Feed → Feed) :
    (s.modFeed r f).pending = s.pending := rfl

/-! ### putMode -/

@[simp] theorem State.putMode_ctl (s : State) (m : Mode) :
    (s.putMode m).ctl = s.ctl := rfl

@[simp] theorem State.putMode_dir (s : State) (m : Mode) :
    (s.putMode m).dir = s.dir := rfl

@[simp] theorem State.putMode_arb (s : State) (m : Mode) :
    (s.putMode m).arb = s.arb := rfl

@[simp] theorem State.putMode_ring (s : State) (m : Mode) :
    (s.putMode m).ring = s.ring := rfl

@[simp] theorem State.putMode_desk (s : State) (m : Mode) :
    (s.putMode m).desk = s.desk := rfl

@[simp] theorem State.putMode_risers (s : State) (m : Mode) :
    (s.putMode m).risers = s.risers := rfl

@[simp] theorem State.putMode_links (s : State) (m : Mode) :
    (s.putMode m).links = s.links := rfl

@[simp] theorem State.putMode_doors (s : State) (m : Mode) :
    (s.putMode m).doors = s.doors := rfl

@[simp] theorem State.putMode_meas (s : State) (m : Mode) :
    (s.putMode m).meas = s.meas := rfl

@[simp] theorem State.putMode_feeds (s : State) (m : Mode) :
    (s.putMode m).feeds = s.feeds := rfl

@[simp] theorem State.putMode_supply_record (s : State) (m : Mode) :
    (s.putMode m).supply.record = s.supply.record := rfl

@[simp] theorem State.putMode_supply_samples (s : State) (m : Mode) :
    (s.putMode m).supply.samples = s.supply.samples := rfl

@[simp] theorem State.putMode_supply_mains (s : State) (m : Mode) :
    (s.putMode m).supply.mains = s.supply.mains := rfl

@[simp] theorem State.putMode_supply_mode (s : State) (m : Mode) :
    (s.putMode m).supply.mode = some m := rfl

@[simp] theorem State.putMode_mgmt (s : State) (m : Mode) :
    (s.putMode m).mgmt = s.mgmt := rfl

@[simp] theorem State.putMode_store (s : State) (m : Mode) :
    (s.putMode m).store = s.store := rfl

@[simp] theorem State.putMode_startup (s : State) (m : Mode) :
    (s.putMode m).startup = s.startup := rfl

@[simp] theorem State.putMode_pending (s : State) (m : Mode) :
    (s.putMode m).pending = s.pending := rfl

/-! ### putMains -/

@[simp] theorem State.putMains_ctl (s : State) (b : Bool) :
    (s.putMains b).ctl = s.ctl := rfl

@[simp] theorem State.putMains_dir (s : State) (b : Bool) :
    (s.putMains b).dir = s.dir := rfl

@[simp] theorem State.putMains_arb (s : State) (b : Bool) :
    (s.putMains b).arb = s.arb := rfl

@[simp] theorem State.putMains_ring (s : State) (b : Bool) :
    (s.putMains b).ring = s.ring := rfl

@[simp] theorem State.putMains_desk (s : State) (b : Bool) :
    (s.putMains b).desk = s.desk := rfl

@[simp] theorem State.putMains_risers (s : State) (b : Bool) :
    (s.putMains b).risers = s.risers := rfl

@[simp] theorem State.putMains_links (s : State) (b : Bool) :
    (s.putMains b).links = s.links := rfl

@[simp] theorem State.putMains_doors (s : State) (b : Bool) :
    (s.putMains b).doors = s.doors := rfl

@[simp] theorem State.putMains_meas (s : State) (b : Bool) :
    (s.putMains b).meas = s.meas := rfl

@[simp] theorem State.putMains_feeds (s : State) (b : Bool) :
    (s.putMains b).feeds = s.feeds := rfl

@[simp] theorem State.putMains_supply_record (s : State) (b : Bool) :
    (s.putMains b).supply.record = s.supply.record := rfl

@[simp] theorem State.putMains_supply_samples (s : State) (b : Bool) :
    (s.putMains b).supply.samples = s.supply.samples := rfl

@[simp] theorem State.putMains_supply_mains (s : State) (b : Bool) :
    (s.putMains b).supply.mains = some b := rfl

@[simp] theorem State.putMains_supply_mode (s : State) (b : Bool) :
    (s.putMains b).supply.mode = s.supply.mode := rfl

@[simp] theorem State.putMains_mgmt (s : State) (b : Bool) :
    (s.putMains b).mgmt = s.mgmt := rfl

@[simp] theorem State.putMains_store (s : State) (b : Bool) :
    (s.putMains b).store = s.store := rfl

@[simp] theorem State.putMains_startup (s : State) (b : Bool) :
    (s.putMains b).startup = s.startup := rfl

@[simp] theorem State.putMains_pending (s : State) (b : Bool) :
    (s.putMains b).pending = s.pending := rfl

/-! ### putSamples -/

@[simp] theorem State.putSamples_ctl (s : State) (xs : List Bool) :
    (s.putSamples xs).ctl = s.ctl := rfl

@[simp] theorem State.putSamples_dir (s : State) (xs : List Bool) :
    (s.putSamples xs).dir = s.dir := rfl

@[simp] theorem State.putSamples_arb (s : State) (xs : List Bool) :
    (s.putSamples xs).arb = s.arb := rfl

@[simp] theorem State.putSamples_ring (s : State) (xs : List Bool) :
    (s.putSamples xs).ring = s.ring := rfl

@[simp] theorem State.putSamples_desk (s : State) (xs : List Bool) :
    (s.putSamples xs).desk = s.desk := rfl

@[simp] theorem State.putSamples_risers (s : State) (xs : List Bool) :
    (s.putSamples xs).risers = s.risers := rfl

@[simp] theorem State.putSamples_links (s : State) (xs : List Bool) :
    (s.putSamples xs).links = s.links := rfl

@[simp] theorem State.putSamples_doors (s : State) (xs : List Bool) :
    (s.putSamples xs).doors = s.doors := rfl

@[simp] theorem State.putSamples_meas (s : State) (xs : List Bool) :
    (s.putSamples xs).meas = s.meas := rfl

@[simp] theorem State.putSamples_feeds (s : State) (xs : List Bool) :
    (s.putSamples xs).feeds = s.feeds := rfl

@[simp] theorem State.putSamples_supply_record (s : State) (xs : List Bool) :
    (s.putSamples xs).supply.record = s.supply.record := rfl

@[simp] theorem State.putSamples_supply_samples (s : State) (xs : List Bool) :
    (s.putSamples xs).supply.samples = xs := rfl

@[simp] theorem State.putSamples_supply_mains (s : State) (xs : List Bool) :
    (s.putSamples xs).supply.mains = s.supply.mains := rfl

@[simp] theorem State.putSamples_supply_mode (s : State) (xs : List Bool) :
    (s.putSamples xs).supply.mode = s.supply.mode := rfl

@[simp] theorem State.putSamples_mgmt (s : State) (xs : List Bool) :
    (s.putSamples xs).mgmt = s.mgmt := rfl

@[simp] theorem State.putSamples_store (s : State) (xs : List Bool) :
    (s.putSamples xs).store = s.store := rfl

@[simp] theorem State.putSamples_startup (s : State) (xs : List Bool) :
    (s.putSamples xs).startup = s.startup := rfl

@[simp] theorem State.putSamples_pending (s : State) (xs : List Bool) :
    (s.putSamples xs).pending = s.pending := rfl

/-! ### putWindow -/

@[simp] theorem State.putWindow_ctl (s : State) (e : Entrance) (v : Option Nat) :
    (s.putWindow e v).ctl = s.ctl := rfl

@[simp] theorem State.putWindow_dir (s : State) (e : Entrance) (v : Option Nat) :
    (s.putWindow e v).dir = s.dir := rfl

@[simp] theorem State.putWindow_arb (s : State) (e : Entrance) (v : Option Nat) :
    (s.putWindow e v).arb = s.arb := rfl

@[simp] theorem State.putWindow_ring (s : State) (e : Entrance) (v : Option Nat) :
    (s.putWindow e v).ring = s.ring := rfl

@[simp] theorem State.putWindow_desk (s : State) (e : Entrance) (v : Option Nat) :
    (s.putWindow e v).desk = s.desk := rfl

@[simp] theorem State.putWindow_risers (s : State) (e : Entrance) (v : Option Nat) :
    (s.putWindow e v).risers = s.risers := rfl

@[simp] theorem State.putWindow_links (s : State) (e : Entrance) (v : Option Nat) :
    (s.putWindow e v).links = s.links := rfl

@[simp] theorem State.putWindow_doors (s : State) (e : Entrance) (v : Option Nat) :
    (s.putWindow e v).doors = s.doors := rfl

@[simp] theorem State.putWindow_meas (s : State) (e : Entrance) (v : Option Nat) :
    (s.putWindow e v).meas = s.meas := rfl

@[simp] theorem State.putWindow_feeds (s : State) (e : Entrance) (v : Option Nat) :
    (s.putWindow e v).feeds = s.feeds := rfl

@[simp] theorem State.putWindow_supply (s : State) (e : Entrance) (v : Option Nat) :
    (s.putWindow e v).supply = s.supply := rfl

@[simp] theorem State.putWindow_mgmt_windows (s : State) (e : Entrance) (v : Option Nat) :
    (s.putWindow e v).mgmt.windows = put s.mgmt.windows e v := rfl

@[simp] theorem State.putWindow_mgmt_conditions (s : State) (e : Entrance) (v : Option Nat) :
    (s.putWindow e v).mgmt.conditions = s.mgmt.conditions := rfl

@[simp] theorem State.putWindow_mgmt_notices (s : State) (e : Entrance) (v : Option Nat) :
    (s.putWindow e v).mgmt.notices = s.mgmt.notices := rfl

@[simp] theorem State.putWindow_mgmt_lost (s : State) (e : Entrance) (v : Option Nat) :
    (s.putWindow e v).mgmt.lost = s.mgmt.lost := rfl

@[simp] theorem State.putWindow_mgmt_mask (s : State) (e : Entrance) (v : Option Nat) :
    (s.putWindow e v).mgmt.mask = s.mgmt.mask := rfl

@[simp] theorem State.putWindow_store (s : State) (e : Entrance) (v : Option Nat) :
    (s.putWindow e v).store = s.store := rfl

@[simp] theorem State.putWindow_startup (s : State) (e : Entrance) (v : Option Nat) :
    (s.putWindow e v).startup = s.startup := rfl

@[simp] theorem State.putWindow_pending (s : State) (e : Entrance) (v : Option Nat) :
    (s.putWindow e v).pending = s.pending := rfl

/-! ### setCondition -/

@[simp] theorem State.setCondition_ctl (s : State) (v : Bool) (k : Condition) :
    (s.setCondition v k).ctl = s.ctl := rfl

@[simp] theorem State.setCondition_dir (s : State) (v : Bool) (k : Condition) :
    (s.setCondition v k).dir = s.dir := rfl

@[simp] theorem State.setCondition_arb (s : State) (v : Bool) (k : Condition) :
    (s.setCondition v k).arb = s.arb := rfl

@[simp] theorem State.setCondition_ring (s : State) (v : Bool) (k : Condition) :
    (s.setCondition v k).ring = s.ring := rfl

@[simp] theorem State.setCondition_desk (s : State) (v : Bool) (k : Condition) :
    (s.setCondition v k).desk = s.desk := rfl

@[simp] theorem State.setCondition_risers (s : State) (v : Bool) (k : Condition) :
    (s.setCondition v k).risers = s.risers := rfl

@[simp] theorem State.setCondition_links (s : State) (v : Bool) (k : Condition) :
    (s.setCondition v k).links = s.links := rfl

@[simp] theorem State.setCondition_doors (s : State) (v : Bool) (k : Condition) :
    (s.setCondition v k).doors = s.doors := rfl

@[simp] theorem State.setCondition_meas (s : State) (v : Bool) (k : Condition) :
    (s.setCondition v k).meas = s.meas := rfl

@[simp] theorem State.setCondition_feeds (s : State) (v : Bool) (k : Condition) :
    (s.setCondition v k).feeds = s.feeds := rfl

@[simp] theorem State.setCondition_supply (s : State) (v : Bool) (k : Condition) :
    (s.setCondition v k).supply = s.supply := rfl

@[simp] theorem State.setCondition_mgmt_windows (s : State) (v : Bool) (k : Condition) :
    (s.setCondition v k).mgmt.windows = s.mgmt.windows := rfl

@[simp] theorem State.setCondition_mgmt_conditions (s : State) (v : Bool) (k : Condition) :
    (s.setCondition v k).mgmt.conditions = s.mgmt.conditions.set v k := rfl

@[simp] theorem State.setCondition_mgmt_notices (s : State) (v : Bool) (k : Condition) :
    (s.setCondition v k).mgmt.notices = s.mgmt.notices := rfl

@[simp] theorem State.setCondition_mgmt_lost (s : State) (v : Bool) (k : Condition) :
    (s.setCondition v k).mgmt.lost = s.mgmt.lost := rfl

@[simp] theorem State.setCondition_mgmt_mask (s : State) (v : Bool) (k : Condition) :
    (s.setCondition v k).mgmt.mask = s.mgmt.mask := rfl

@[simp] theorem State.setCondition_store (s : State) (v : Bool) (k : Condition) :
    (s.setCondition v k).store = s.store := rfl

@[simp] theorem State.setCondition_startup (s : State) (v : Bool) (k : Condition) :
    (s.setCondition v k).startup = s.startup := rfl

@[simp] theorem State.setCondition_pending (s : State) (v : Bool) (k : Condition) :
    (s.setCondition v k).pending = s.pending := rfl

/-! ### putStore -/

@[simp] theorem State.putStore_ctl (s : State) (x : Store) :
    (s.putStore x).ctl = s.ctl := rfl

@[simp] theorem State.putStore_dir (s : State) (x : Store) :
    (s.putStore x).dir = s.dir := rfl

@[simp] theorem State.putStore_arb (s : State) (x : Store) :
    (s.putStore x).arb = s.arb := rfl

@[simp] theorem State.putStore_ring (s : State) (x : Store) :
    (s.putStore x).ring = s.ring := rfl

@[simp] theorem State.putStore_desk (s : State) (x : Store) :
    (s.putStore x).desk = s.desk := rfl

@[simp] theorem State.putStore_risers (s : State) (x : Store) :
    (s.putStore x).risers = s.risers := rfl

@[simp] theorem State.putStore_links (s : State) (x : Store) :
    (s.putStore x).links = s.links := rfl

@[simp] theorem State.putStore_doors (s : State) (x : Store) :
    (s.putStore x).doors = s.doors := rfl

@[simp] theorem State.putStore_meas (s : State) (x : Store) :
    (s.putStore x).meas = s.meas := rfl

@[simp] theorem State.putStore_feeds (s : State) (x : Store) :
    (s.putStore x).feeds = s.feeds := rfl

@[simp] theorem State.putStore_supply (s : State) (x : Store) :
    (s.putStore x).supply = s.supply := rfl

@[simp] theorem State.putStore_mgmt (s : State) (x : Store) :
    (s.putStore x).mgmt = s.mgmt := rfl

@[simp] theorem State.putStore_store (s : State) (x : Store) :
    (s.putStore x).store = x := rfl

@[simp] theorem State.putStore_startup (s : State) (x : Store) :
    (s.putStore x).startup = s.startup := rfl

@[simp] theorem State.putStore_pending (s : State) (x : Store) :
    (s.putStore x).pending = s.pending := rfl

/-! ### offer -/

@[simp] theorem State.offer_ctl (s : State) (n : Notice) : (s.offer n).ctl = s.ctl := rfl

@[simp] theorem State.offer_dir (s : State) (n : Notice) : (s.offer n).dir = s.dir := rfl

@[simp] theorem State.offer_arb (s : State) (n : Notice) : (s.offer n).arb = s.arb := rfl

@[simp] theorem State.offer_ring (s : State) (n : Notice) : (s.offer n).ring = s.ring := rfl

@[simp] theorem State.offer_desk (s : State) (n : Notice) : (s.offer n).desk = s.desk := rfl

@[simp] theorem State.offer_risers (s : State) (n : Notice) : (s.offer n).risers = s.risers := rfl

@[simp] theorem State.offer_links (s : State) (n : Notice) : (s.offer n).links = s.links := rfl

@[simp] theorem State.offer_doors (s : State) (n : Notice) : (s.offer n).doors = s.doors := rfl

@[simp] theorem State.offer_meas (s : State) (n : Notice) : (s.offer n).meas = s.meas := rfl

@[simp] theorem State.offer_feeds (s : State) (n : Notice) : (s.offer n).feeds = s.feeds := rfl

@[simp] theorem State.offer_supply (s : State) (n : Notice) : (s.offer n).supply = s.supply := rfl

@[simp] theorem State.offer_store (s : State) (n : Notice) : (s.offer n).store = s.store := rfl

@[simp] theorem State.offer_startup (s : State) (n : Notice) : (s.offer n).startup = s.startup := rfl

@[simp] theorem State.offer_pending (s : State) (n : Notice) : (s.offer n).pending = s.pending := rfl

@[simp] theorem State.offer_mgmt (s : State) (n : Notice) : (s.offer n).mgmt = s.mgmt.offer n := rfl

/-- A notice offered: masked, queued, or dropped with the notices-lost flag (R183). -/
theorem Management.offer_cases (m : Management) (n : Notice) :
    (m.mask.getLsbD (n.kind - 1) = false ∧ m.offer n = m) ∨
    (m.mask.getLsbD (n.kind - 1) = true ∧ m.notices.length < 16 ∧
      m.offer n = { m with notices := m.notices ++ [n] }) ∨
    (m.mask.getLsbD (n.kind - 1) = true ∧ 16 ≤ m.notices.length ∧ m.offer n = { m with lost := true }) := by
  unfold Management.offer
  by_cases h : m.mask.getLsbD (n.kind - 1) = true
  · by_cases g : m.notices.length < 16
    · exact .inr (.inl ⟨h, g, by rw [if_pos h, if_pos g]⟩)
    · exact .inr (.inr ⟨h, by omega, by rw [if_pos h, if_neg g]⟩)
  · exact .inl ⟨by simpa using h, by rw [if_neg h]⟩

@[simp] theorem Management.offer_windows (m : Management) (n : Notice) : (m.offer n).windows = m.windows := by
  rcases m.offer_cases n with ⟨_, h⟩ | ⟨_, _, h⟩ | ⟨_, _, h⟩ <;> rw [h]

@[simp] theorem Management.offer_conditions (m : Management) (n : Notice) : (m.offer n).conditions = m.conditions := by
  rcases m.offer_cases n with ⟨_, h⟩ | ⟨_, _, h⟩ | ⟨_, _, h⟩ <;> rw [h]

@[simp] theorem Management.offer_mask (m : Management) (n : Notice) : (m.offer n).mask = m.mask := by
  rcases m.offer_cases n with ⟨_, h⟩ | ⟨_, _, h⟩ | ⟨_, _, h⟩ <;> rw [h]

/-! ### modCall -/

/-- A live call changed is written; a FREE record is left alone (R1). -/
theorem State.modCall_cases (s : State) (c : CallId) (f : Call → Call) :
    (s.call? c = none ∧ s.modCall c f = s) ∨ ∃ x, s.call? c = some x ∧ s.modCall c f = s.setCall c (some (f x)) := by
  unfold State.modCall
  cases h : s.call? c with
  | none => exact .inl ⟨rfl, rfl⟩
  | some x => exact .inr ⟨x, rfl, rfl⟩

@[simp] theorem State.modCall_ctl_lines (s : State) (c : CallId) (f : Call → Call) :
    (s.modCall c f).ctl.lines = s.ctl.lines := by
  rcases s.modCall_cases c f with ⟨_, h⟩ | ⟨x, _, h⟩ <;> rw [h] <;> rfl

@[simp] theorem State.modCall_ctl_stamp (s : State) (c : CallId) (f : Call → Call) :
    (s.modCall c f).ctl.stamp = s.ctl.stamp := by
  rcases s.modCall_cases c f with ⟨_, h⟩ | ⟨x, _, h⟩ <;> rw [h] <;> rfl

@[simp] theorem State.modCall_ctl_floor (s : State) (c : CallId) (f : Call → Call) :
    (s.modCall c f).ctl.floor = s.ctl.floor := by
  rcases s.modCall_cases c f with ⟨_, h⟩ | ⟨x, _, h⟩ <;> rw [h] <;> rfl

@[simp] theorem State.modCall_dir (s : State) (c : CallId) (f : Call → Call) :
    (s.modCall c f).dir = s.dir := by
  rcases s.modCall_cases c f with ⟨_, h⟩ | ⟨x, _, h⟩ <;> rw [h] <;> rfl

@[simp] theorem State.modCall_arb (s : State) (c : CallId) (f : Call → Call) :
    (s.modCall c f).arb = s.arb := by
  rcases s.modCall_cases c f with ⟨_, h⟩ | ⟨x, _, h⟩ <;> rw [h] <;> rfl

@[simp] theorem State.modCall_ring (s : State) (c : CallId) (f : Call → Call) :
    (s.modCall c f).ring = s.ring := by
  rcases s.modCall_cases c f with ⟨_, h⟩ | ⟨x, _, h⟩ <;> rw [h] <;> rfl

@[simp] theorem State.modCall_desk (s : State) (c : CallId) (f : Call → Call) :
    (s.modCall c f).desk = s.desk := by
  rcases s.modCall_cases c f with ⟨_, h⟩ | ⟨x, _, h⟩ <;> rw [h] <;> rfl

@[simp] theorem State.modCall_risers (s : State) (c : CallId) (f : Call → Call) :
    (s.modCall c f).risers = s.risers := by
  rcases s.modCall_cases c f with ⟨_, h⟩ | ⟨x, _, h⟩ <;> rw [h] <;> rfl

@[simp] theorem State.modCall_links (s : State) (c : CallId) (f : Call → Call) :
    (s.modCall c f).links = s.links := by
  rcases s.modCall_cases c f with ⟨_, h⟩ | ⟨x, _, h⟩ <;> rw [h] <;> rfl

@[simp] theorem State.modCall_doors (s : State) (c : CallId) (f : Call → Call) :
    (s.modCall c f).doors = s.doors := by
  rcases s.modCall_cases c f with ⟨_, h⟩ | ⟨x, _, h⟩ <;> rw [h] <;> rfl

@[simp] theorem State.modCall_meas (s : State) (c : CallId) (f : Call → Call) :
    (s.modCall c f).meas = s.meas := by
  rcases s.modCall_cases c f with ⟨_, h⟩ | ⟨x, _, h⟩ <;> rw [h] <;> rfl

@[simp] theorem State.modCall_feeds (s : State) (c : CallId) (f : Call → Call) :
    (s.modCall c f).feeds = s.feeds := by
  rcases s.modCall_cases c f with ⟨_, h⟩ | ⟨x, _, h⟩ <;> rw [h] <;> rfl

@[simp] theorem State.modCall_supply (s : State) (c : CallId) (f : Call → Call) :
    (s.modCall c f).supply = s.supply := by
  rcases s.modCall_cases c f with ⟨_, h⟩ | ⟨x, _, h⟩ <;> rw [h] <;> rfl

@[simp] theorem State.modCall_mgmt (s : State) (c : CallId) (f : Call → Call) :
    (s.modCall c f).mgmt = s.mgmt := by
  rcases s.modCall_cases c f with ⟨_, h⟩ | ⟨x, _, h⟩ <;> rw [h] <;> rfl

@[simp] theorem State.modCall_store (s : State) (c : CallId) (f : Call → Call) :
    (s.modCall c f).store = s.store := by
  rcases s.modCall_cases c f with ⟨_, h⟩ | ⟨x, _, h⟩ <;> rw [h] <;> rfl

@[simp] theorem State.modCall_startup (s : State) (c : CallId) (f : Call → Call) :
    (s.modCall c f).startup = s.startup := by
  rcases s.modCall_cases c f with ⟨_, h⟩ | ⟨x, _, h⟩ <;> rw [h] <;> rfl

@[simp] theorem State.modCall_pending (s : State) (c : CallId) (f : Call → Call) :
    (s.modCall c f).pending = s.pending := by
  rcases s.modCall_cases c f with ⟨_, h⟩ | ⟨x, _, h⟩ <;> rw [h] <;> rfl

/-! ### Reading back -/

/-- A record read after a write. -/
theorem State.setCall_call? (s : State) (c d : CallId) (x : Option Call) :
    (s.setCall c x).call? d = if c = d then x else s.call? d := put_get _ _ _ _

/-- A record read after a change of a live call. -/
theorem State.modCall_call? (s : State) (c d : CallId) (f : Call → Call) :
    (s.modCall c f).call? d = if c = d then (s.call? d).map f else s.call? d := by
  rcases s.modCall_cases c f with ⟨h, e⟩ | ⟨x, h, e⟩
  · rw [e]
    split
    · next g => rw [← g, h]; rfl
    · rfl
  · rw [e, State.setCall_call?]
    split
    · next g => rw [← g, h]; rfl
    · rfl

/-- A line state read after a write. -/
theorem State.putLine_lineState (s : State) (h g : Handset) (v : LineState) :
    (s.putLine h v).lineState g = if h = g then v else s.lineState g := by
  unfold State.lineState
  rw [State.putLine_ctl_lines, upd_get]
  by_cases hr : h.riser = g.riser
  · rw [if_pos hr, put_get]
    by_cases hn : h.node = g.node
    · have : h = g := by cases h; cases g; simp_all
      rw [if_pos hn, if_pos this]
    · have : h ≠ g := fun e => hn (by rw [e])
      rw [if_neg hn, if_neg this]
  · have : h ≠ g := fun e => hr (by rw [e])
    rw [if_neg hr, if_neg this]

/-- A riser controller read after a change of one. -/
theorem State.modRiser_get (s : State) (r q : Riser) (f : RiserControl → RiserControl) :
    (s.modRiser r f).risers[q] = if r = q then f s.risers[q] else s.risers[q] := upd_get _ _ _ _

/-- A riser's slots read after a change of one riser's. -/
theorem State.modSlots_get (s : State) (r q : Riser) (f : RiserSlots → RiserSlots) :
    (s.modSlots r f).arb.risers[q] = if r = q then f s.arb.risers[q] else s.arb.risers[q] := upd_get _ _ _ _

/-- Links have places of their own. -/
theorem linkIndex_inj : ∀ {l m : Link}, linkIndex l = linkIndex m → l = m := by
  intro l m h
  cases l with
  | entrance e =>
    cases m with
    | entrance f =>
      have : e.val = f.val := by simpa [linkIndex] using h
      exact congrArg Link.entrance (Fin.ext this)
    | desk =>
      have g : e.val = 6 := congrArg Fin.val h
      omega
  | desk =>
    cases m with
    | entrance f =>
      have g : 6 = f.val := congrArg Fin.val h
      omega
    | desk => rfl

/-- A link unit read after a change of one. -/
theorem State.modLink_link (s : State) (l m : Link) (f : LinkUnit → LinkUnit) :
    (s.modLink l f).link m = if l = m then f (s.link m) else s.link m := by
  unfold State.link
  rw [State.modLink_links, upd_get]
  by_cases h : l = m
  · rw [if_pos h, if_pos (by rw [h])]
  · rw [if_neg h, if_neg fun e => h (linkIndex_inj e)]

/-- A link unit of a state whose links are those of another. -/
theorem State.link_eq {s t : State} (h : t.links = s.links) (l : Link) : t.link l = s.link l := by
  unfold State.link; rw [h]

/-- A door unit read after a change of one. -/
theorem State.modDoor_get (s : State) (e g : Entrance) (f : DoorUnit → DoorUnit) :
    (s.modDoor e f).doors[g] = if e = g then f s.doors[g] else s.doors[g] := upd_get _ _ _ _

/-- A feed monitor read after a change of one. -/
theorem State.modFeed_get (s : State) (r q : Riser) (f : Feed → Feed) :
    (s.modFeed r f).feeds[q] = if r = q then f s.feeds[q] else s.feeds[q] := upd_get _ _ _ _

/-- A sounding set read after a write. -/
theorem State.setSounding_get (s : State) (r q : Riser) (xs : List Sounding) :
    (s.setSounding r xs).ring.sounding[q] = if r = q then xs else s.ring.sounding[q] := put_get _ _ _ _

/-- A console line read after a write. -/
theorem State.setConsole_get (s : State) (l m : LineNo) (v : ConsoleLine) :
    (s.setConsole l v).desk.lines[m] = if l = m then v else s.desk.lines[m] := put_get _ _ _ _

end Sys2Proof.Machine
end

