-- ==== Sys2Proof/Laws/Steady.lean ====
section
/-! SUPPORT. What the handling of calls, waits, ringing and riser queues leaves alone (`Steady`): one lemma for each
shared operation, up to `State.cascade` and `State.settle`. -/

namespace Sys2Proof.Machine

-- Theorems one after the other: side by side, their threads would not fit in the memory that one file may use.
set_option Elab.async false

open Sys2Proof

theorem SameCall.refl (x : Call) : SameCall x x := ⟨rfl, rfl, rfl, rfl, rfl⟩

theorem SameCall.trans {x y z : Call} (a : SameCall x y) (b : SameCall y z) : SameCall x z :=
  ⟨b.cls.trans a.cls, b.params.trans a.params, b.origin.trans a.origin,
    b.stamp.trans a.stamp, b.doorReleased.trans a.doorReleased⟩

theorem Steady.refl (s : State) : Steady s s := by
  constructor <;> first
    | rfl
    | exact fun _ => rfl
    | exact fun _ _ => rfl
    | exact fun _ y h => ⟨y, h, .refl y⟩
    | exact List.prefix_rfl

theorem Steady.trans {s t u : State} (a : Steady s t) (b : Steady t u) : Steady s u where
  dir := b.dir.trans a.dir
  doors := b.doors.trans a.doors
  meas := b.meas.trans a.meas
  feeds := b.feeds.trans a.feeds
  supply := b.supply.trans a.supply
  store := b.store.trans a.store
  startup := b.startup.trans a.startup
  pending := b.pending.trans a.pending
  stamp := b.stamp.trans a.stamp
  floor := b.floor.trans a.floor
  usable := b.usable.trans a.usable
  percent := b.percent.trans a.percent
  isOpen := b.isOpen.trans a.isOpen
  windows := b.windows.trans a.windows
  mask := b.mask.trans a.mask
  presence r := (b.presence r).trans (a.presence r)
  missed r := (b.missed r).trans (a.missed r)
  pause r := (b.pause r).trans (a.pause r)
  parityErrors r := (b.parityErrors r).trans (a.parityErrors r)
  wordErrors r := (b.wordErrors r).trans (a.wordErrors r)
  survey r := (b.survey r).trans (a.survey r)
  up l := (b.up l).trans (a.up l)
  liveness l := (b.liveness l).trans (a.liveness l)
  received l := (b.received l).trans (a.received l)
  gap l := (b.gap l).trans (a.gap l)
  sending l := (b.sending l).trans (a.sending l)
  statusMs l := (b.statusMs l).trans (a.statusMs l)
  sequence l := (b.sequence l).trans (a.sequence l)
  frameErrors l := (b.frameErrors l).trans (a.frameErrors l)
  down l h := (b.down l ((a.up l).trans h)).trans (a.down l h)
  calls c y h := by
    obtain ⟨x, hx, sx⟩ := b.calls c y h
    obtain ⟨w, hw, sw⟩ := a.calls c x hx
    exact ⟨w, hw, sw.trans sx⟩
  notices := a.notices.trans b.notices
  conditions k h := (b.conditions k h).trans (a.conditions k h)

/-- A record FREE before is FREE after. -/
theorem Steady.free {s t : State} (a : Steady s t) {c : CallId} (h : s.call? c = none) : t.call? c = none := by
  cases e : t.call? c with
  | none => rfl
  | some y =>
    obtain ⟨x, hx, _⟩ := a.calls c y e
    rw [h] at hx
    cases hx

/-! ### Plain writes -/

/-- A write that keeps everything `Steady` speaks of but riser controllers and links, and those two as they are. -/
theorem Steady.of_eq {s t : State} (dir : t.dir = s.dir) (doors : t.doors = s.doors) (meas : t.meas = s.meas)
    (feeds : t.feeds = s.feeds) (supply : t.supply = s.supply) (store : t.store = s.store)
    (startup : t.startup = s.startup) (pending : t.pending = s.pending) (stamp : t.ctl.stamp = s.ctl.stamp)
    (floor : t.ctl.floor = s.ctl.floor) (usable : t.arb.usable = s.arb.usable) (percent : t.ring.percent = s.ring.percent)
    (isOpen : t.desk.isOpen = s.desk.isOpen) (windows : t.mgmt.windows = s.mgmt.windows)
    (mask : t.mgmt.mask = s.mgmt.mask) (risers : t.risers = s.risers) (links : t.links = s.links)
    (calls : ∀ c y, t.call? c = some y → ∃ x, s.call? c = some x ∧ SameCall x y)
    (notices : s.mgmt.notices <+: t.mgmt.notices)
    (conditions : ∀ k, k ≠ .urgentUnanswered → t.mgmt.conditions.latched k = s.mgmt.conditions.latched k) :
    Steady s t := by
  constructor <;> first
    | assumption
    | exact fun r => by rw [risers]
    | (intro l; rw [State.link_eq links]; done)
    | (intro l _; rw [State.link_eq links]; done)

/-- A state whose calls are those of another has the same calls. -/
theorem calls_of_eq {s t : State} (h : t.ctl.calls = s.ctl.calls) (c : CallId) (y : Call) (e : t.call? c = some y) :
    ∃ x, s.call? c = some x ∧ SameCall x y := by
  refine ⟨y, ?_, .refl y⟩
  rw [← e]
  unfold State.call?
  rw [h]

theorem steady_freeCall (s : State) (c : CallId) : Steady s (s.setCall c none) := by
  apply Steady.of_eq <;> first
    | rfl
    | exact fun _ _ => rfl
    | exact List.prefix_rfl
    | skip
  intro d y h
  rw [State.setCall_call?] at h
  by_cases g : c = d
  · rw [if_pos g] at h; cases h
  · rw [if_neg g] at h; exact ⟨y, h, .refl y⟩

/-- A change of a live call that leaves it the call it is. -/
theorem steady_modCall (s : State) (c : CallId) (f : Call → Call)
    (same : ∀ x, SameCall x (f x) := by exact fun _ => ⟨rfl, rfl, rfl, rfl, rfl⟩) : Steady s (s.modCall c f) := by
  apply Steady.of_eq <;> first
    | (simp; done)
    | exact fun _ _ => by simp
    | skip
  intro d y h
  rw [State.modCall_call?] at h
  by_cases g : c = d
  · rw [if_pos g] at h
    obtain ⟨x, hx, e⟩ := Option.map_eq_some_iff.mp h
    exact ⟨x, hx, e ▸ same x⟩
  · rw [if_neg g] at h; exact ⟨y, h, .refl y⟩

theorem steady_putLine (s : State) (h : Handset) (v : LineState) : Steady s (s.putLine h v) := by
  apply Steady.of_eq <;> first
    | rfl
    | exact fun _ _ => rfl
    | exact List.prefix_rfl
    | exact calls_of_eq rfl

theorem steady_modSlots (s : State) (r : Riser) (f : RiserSlots → RiserSlots) : Steady s (s.modSlots r f) := by
  apply Steady.of_eq <;> first
    | rfl
    | exact fun _ _ => rfl
    | exact List.prefix_rfl
    | exact calls_of_eq rfl

theorem steady_setCross (s : State) (xs : List Connection) : Steady s (s.setCross xs) := by
  apply Steady.of_eq <;> first
    | rfl
    | exact fun _ _ => rfl
    | exact List.prefix_rfl
    | exact calls_of_eq rfl

theorem steady_clearDue (s : State) : Steady s s.clearDue := by
  apply Steady.of_eq <;> first
    | rfl
    | exact fun _ _ => rfl
    | exact List.prefix_rfl
    | exact calls_of_eq rfl

theorem steady_setSounding (s : State) (r : Riser) (xs : List Sounding) : Steady s (s.setSounding r xs) := by
  apply Steady.of_eq <;> first
    | rfl
    | exact fun _ _ => rfl
    | exact List.prefix_rfl
    | exact calls_of_eq rfl

theorem steady_setConsole (s : State) (l : LineNo) (v : ConsoleLine) : Steady s (s.setConsole l v) := by
  apply Steady.of_eq <;> first
    | rfl
    | exact fun _ _ => rfl
    | exact List.prefix_rfl
    | exact calls_of_eq rfl

theorem steady_setDeskQueue (s : State) (q : List CallId) : Steady s (s.setDeskQueue q) := by
  apply Steady.of_eq <;> first
    | rfl
    | exact fun _ _ => rfl
    | exact List.prefix_rfl
    | exact calls_of_eq rfl

theorem Management.offer_notices (m : Management) (n : Notice) : m.notices <+: (m.offer n).notices := by
  rcases m.offer_cases n with ⟨_, h⟩ | ⟨_, _, h⟩ | ⟨_, _, h⟩ <;> simp [h]

theorem steady_offer (s : State) (n : Notice) : Steady s (s.offer n) := by
  apply Steady.of_eq <;> first
    | (simp; done)
    | exact fun _ _ => by simp
    | exact calls_of_eq rfl
    | exact Management.offer_notices _ _

theorem steady_raiseUrgent (s : State) : Steady s (s.raise .urgentUnanswered) := by
  unfold State.raise
  split
  · exact .refl s
  · refine Steady.trans ?_ (steady_offer _ _)
    apply Steady.of_eq <;> first
      | rfl
      | exact List.prefix_rfl
      | exact calls_of_eq rfl
      | skip
    intro k h
    cases k <;> first | rfl | exact absurd rfl h

/-- A change of a riser controller that keeps presence, missed counts, pause and error counters. -/
theorem steady_modRiser (s : State) (r : Riser) (f : RiserControl → RiserControl)
    (presence : ∀ u, (f u).presence = u.presence) (missed : ∀ u, (f u).missed = u.missed)
    (pause : ∀ u, (f u).pause = u.pause) (parity : ∀ u, (f u).parityErrors = u.parityErrors)
    (word : ∀ u, (f u).wordErrors = u.wordErrors)
    (survey : ∀ u, (f u).survey.map Survey.replied = u.survey.map Survey.replied := by exact fun _ => rfl) :
    Steady s (s.modRiser r f) := by
  constructor <;> first
    | rfl
    | exact fun _ => rfl
    | exact fun _ _ => rfl
    | exact List.prefix_rfl
    | exact calls_of_eq rfl
    | exact fun q => upd_keeps s.risers r q f (·.survey.map Survey.replied) survey
    | exact fun q => upd_keeps s.risers r q f (·.presence) presence
    | exact fun q => upd_keeps s.risers r q f (·.missed) missed
    | exact fun q => upd_keeps s.risers r q f (·.pause) pause
    | exact fun q => upd_keeps s.risers r q f (·.parityErrors) parity
    | exact fun q => upd_keeps s.risers r q f (·.wordErrors) word

/-! ### Frames, messages and line states -/

/-- Handing a frame to a link unit leaves every part of it but its send list and the counter of frames lost (R140). -/
theorem LinkUnit.hand_cases (u : LinkUnit) (coalesce : Bool) (f : Frame) :
    ∃ q d, u.hand coalesce f = { u with sendList := q, sendLoss := d } := by
  unfold LinkUnit.hand
  split
  · exact ⟨u.sendList, u.sendLoss, rfl⟩
  · split
    · exact ⟨_, u.sendLoss, rfl⟩
    · split <;> first | exact ⟨_, u.sendLoss, rfl⟩ | exact ⟨u.sendList, _, rfl⟩

/-- A SIGNAL or REPLY handed to a link: one on a DOWN link is discarded (R140). -/
theorem steady_sendFrame (s : State) (l : Link) (f : Frame) (signal : f.needsUp = true := by rfl) :
    Steady s (s.sendFrame l f) := by
  have g {β : Type} (p : LinkUnit → β) (h : ∀ u, p (u.hand (isEntranceLink l) f) = p u) (m : Link) :
      p ((s.sendFrame l f).link m) = p (s.link m) := upd_keeps s.links (linkIndex l) (linkIndex m) _ p h
  constructor <;> first
    | rfl
    | exact fun _ => rfl
    | exact fun _ _ => rfl
    | exact List.prefix_rfl
    | exact calls_of_eq rfl
    | exact g (·.up) fun u => by obtain ⟨q, d, e⟩ := u.hand_cases (isEntranceLink l) f; rw [e]
    | exact g (·.liveness) fun u => by obtain ⟨q, d, e⟩ := u.hand_cases (isEntranceLink l) f; rw [e]
    | exact g (·.received) fun u => by obtain ⟨q, d, e⟩ := u.hand_cases (isEntranceLink l) f; rw [e]
    | exact g (·.gap) fun u => by obtain ⟨q, d, e⟩ := u.hand_cases (isEntranceLink l) f; rw [e]
    | exact g (·.sending) fun u => by obtain ⟨q, d, e⟩ := u.hand_cases (isEntranceLink l) f; rw [e]
    | exact g (·.statusMs) fun u => by obtain ⟨q, d, e⟩ := u.hand_cases (isEntranceLink l) f; rw [e]
    | exact g (·.sequence) fun u => by obtain ⟨q, d, e⟩ := u.hand_cases (isEntranceLink l) f; rw [e]
    | exact g (·.frameErrors) fun u => by obtain ⟨q, d, e⟩ := u.hand_cases (isEntranceLink l) f; rw [e]
    | skip
  intro m down
  unfold State.sendFrame
  rw [State.modLink_link]
  split
  · unfold LinkUnit.hand
    rw [down, signal]
    rfl
  · rfl

theorem steady_tellEntrance (s : State) (e : Entrance) (p : Progress) : Steady s (s.tellEntrance e p) :=
  steady_sendFrame _ _ _

theorem steady_tellLine (s : State) (l : LineNo) (p : Progress) : Steady s (s.tellLine l p) := steady_sendFrame _ _ _

theorem steady_tellLine? (s : State) (l : Option LineNo) (p : Progress) : Steady s (s.tellLine? l p) := by
  unfold State.tellLine?
  split
  · exact steady_tellLine _ _ _
  · exact .refl s

/-- An indication that joins a queue leaves every other part of its riser controller but the counter of dropped ones
(R125, R126). -/
theorem RiserControl.addIndication_cases (u : RiserControl) (e : IndicationEntry) :
    ∃ q d, u.addIndication e = { u with indications := q, dropped := d } := by
  unfold RiserControl.addIndication
  dsimp only
  split <;> split <;> first
    | exact ⟨_, u.dropped, rfl⟩
    | (split <;> first | exact ⟨_, u.dropped, rfl⟩ | exact ⟨u.indications, _, rfl⟩)

theorem steady_indicate (s : State) (h : Handset) (i : Indication) : Steady s (s.indicate h i) := by
  unfold State.indicate
  split
  · apply steady_modRiser <;> intro u <;>
      obtain ⟨q, d, e⟩ := u.addIndication_cases { node := h.node, content := i } <;> rw [e]
  · exact .refl s

theorem steady_tone (s : State) (h : Handset) (t : Tone) : Steady s (s.tone h t) := steady_indicate _ _ _

theorem steady_addCommand (s : State) (r : Riser) (m : Command) : Steady s (s.addCommand r m) :=
  steady_modRiser _ _ _ (fun _ => rfl) (fun _ => rfl) (fun _ => rfl) (fun _ => rfl) fun _ => rfl

theorem steady_sendSlot (s : State) (h : Handset) (k : Slot) : Steady s (s.sendSlot h k) := by
  unfold State.sendSlot
  split
  · exact steady_addCommand _ _ _
  · exact .refl s

theorem steady_sendClear (s : State) (h : Handset) (c : CallId) : Steady s (s.sendClear h c) := by
  unfold State.sendClear
  split
  · exact steady_addCommand _ _ _
  · exact .refl s

/-- A handset joining the attention list leaves the rest of its riser controller (R117). -/
theorem RiserControl.joinAttention_cases (u : RiserControl) (n : Node) :
    ∃ q, u.joinAttention n = { u with attention := q } := by
  unfold RiserControl.joinAttention
  split
  · exact ⟨u.attention, rfl⟩
  · exact ⟨_, rfl⟩

theorem steady_setLine (s : State) (h : Handset) (v : LineState) : Steady s (s.setLine h v) := by
  unfold State.setLine
  dsimp only
  split
  · refine (steady_putLine s h v).trans ?_
    apply steady_modRiser <;> intro u <;> obtain ⟨q, e⟩ := u.joinAttention_cases h.node <;> rw [e]
  · split
    · exact (steady_putLine s h v).trans (steady_modRiser _ _ _ (fun _ => rfl) (fun _ => rfl) (fun _ => rfl)
        (fun _ => rfl) fun _ => rfl)
    · exact steady_putLine s h v

theorem steady_tellWaiting (s : State) (x : Call) : Steady s (s.tellWaiting x) := by
  unfold State.tellWaiting
  split
  · exact steady_tellEntrance _ _ _
  · exact steady_tellLine _ _ _
  · exact steady_tone _ _ _

theorem steady_tellRinging (s : State) (x : Call) : Steady s (s.tellRinging x) := by
  unfold State.tellRinging
  split
  · exact steady_tellEntrance _ _ _
  · exact steady_tellLine _ _ _
  · exact steady_tone _ _ _

/-! ### The ring scheduler -/

theorem steady_stopSounding (s : State) (h : Handset) : Steady s (s.stopSounding h) := steady_setSounding _ _ _

theorem steady_admitOne (c : CallId) (m : Member) (s : State) : Steady s (admitOne c m s).2 := by
  unfold admitOne
  dsimp only
  split
  · exact (steady_setSounding _ _ _).trans (steady_indicate _ _ _)
  · exact steady_indicate _ _ _

theorem steady_admitMembers (c : CallId) : ∀ (ms : List Member) (s : State), Steady s (admitMembers c ms s).2
  | [], s => .refl s
  | m :: ms, s => (steady_admitOne c m s).trans (steady_admitMembers c ms _)

theorem steady_admitRing (s : State) (c : CallId) : Steady s (s.admitRing c) := by
  unfold State.admitRing
  split
  · exact (steady_admitMembers c _ s).trans (steady_modCall _ _ _)
  · exact .refl s

theorem steady_quietMembers : ∀ (ms : List Member) (s : State), Steady s (quietMembers ms s)
  | [], s => .refl s
  | m :: ms, s =>
    ((steady_stopSounding s m.handset).trans (steady_indicate _ _ _)).trans (steady_quietMembers ms _)

theorem steady_endSounding (s : State) (c : CallId) : Steady s (s.endSounding c) := by
  unfold State.endSounding
  split
  · exact (steady_quietMembers _ s).trans (steady_modCall _ _ _)
  · exact .refl s

theorem steady_startSegment (s : State) (c : CallId) (g : Segment) : Steady s (s.startSegment c g) := by
  unfold State.startSegment
  dsimp only
  split
  · exact (steady_modCall _ _ _).trans (steady_admitRing _ _)
  · exact steady_modCall _ _ _

theorem steady_startCadence (s : State) (c : CallId) : Steady s (s.startCadence c) :=
  (steady_modCall _ _ _).trans (steady_startSegment _ _ _)

theorem steady_silenceMembers : ∀ (ms : List Member) (s : State), Steady s (silenceMembers ms s)
  | [], s => .refl s
  | _ :: ms, s => (steady_stopSounding s _).trans (steady_silenceMembers ms _)

theorem steady_stopCadence (s : State) (c : CallId) : Steady s (s.stopCadence c) := by
  unfold State.stopCadence
  split
  · exact (steady_silenceMembers _ s).trans (steady_modCall _ _ _)
  · exact .refl s

theorem steady_withdraw (s : State) (c : CallId) (h : Handset) : Steady s (s.withdraw c h) :=
  (steady_stopSounding s h).trans (steady_modCall _ _ _)

theorem steady_cutMember (s : State) (r : Riser) (x : Sounding) : Steady s (s.cutMember r x) :=
  (steady_modCall _ _ _).trans (steady_indicate _ _ _)

theorem steady_cutNewest (r : Riser) (budget : Nat) :
    ∀ (xs : List Sounding) (s : State), Steady s (cutNewest r budget xs s)
  | [], s => steady_setSounding s r []
  | x :: xs, s => by
    unfold cutNewest
    split
    · exact steady_setSounding _ _ _
    · exact (steady_cutMember s r x).trans (steady_cutNewest r budget xs _)

theorem steady_cutback (s : State) (r : Riser) : Steady s (s.cutback r) := by
  unfold State.cutback
  split
  · exact .refl s
  · exact steady_cutNewest _ _ _ _

/-! ### The slot arbiter -/

theorem steady_grant (s : State) (r : Riser) (k : Slot) (c : CallId) : Steady s (s.grant r k c) :=
  (steady_modSlots _ _ _).trans (steady_modCall _ _ _)

theorem steady_grantLowest (s : State) (c : CallId) (r : Riser) : Steady s (s.grantLowest c r) := by
  unfold State.grantLowest
  split
  · exact steady_grant _ _ _ _
  · exact .refl s

theorem steady_grantAll (c : CallId) : ∀ (rs : List Riser) (s : State), Steady s (s.grantAll c rs)
  | [], s => .refl s
  | r :: rs, s => (steady_grantLowest s c r).trans (steady_grantAll c rs _)

theorem steady_freeSlot (s : State) (p : Riser × Slot) : Steady s (s.freeSlot p) := by
  apply Steady.of_eq <;> first
    | rfl
    | exact fun _ _ => rfl
    | exact List.prefix_rfl
    | exact calls_of_eq rfl

theorem steady_freeSlots : ∀ (ps : List (Riser × Slot)) (s : State), Steady s (ps.foldl State.freeSlot s)
  | [], s => .refl s
  | p :: ps, s => (steady_freeSlot s p).trans (steady_freeSlots ps _)

theorem steady_returnSlots (s : State) (c : CallId) : Steady s (s.returnSlots c) := by
  unfold State.returnSlots
  split
  · exact (steady_freeSlots _ s).trans (steady_modCall _ _ _)
  · exact .refl s

theorem steady_dropReservations (s : State) (c : CallId) : Steady s (s.dropReservations c) := by
  apply Steady.of_eq <;> first
    | rfl
    | exact fun _ _ => rfl
    | exact List.prefix_rfl
    | exact calls_of_eq rfl

theorem steady_joinWait (s : State) (r : Riser) (c : CallId) : Steady s (s.joinWait r c) := steady_modSlots _ _ _

theorem steady_leaveWait (s : State) (r : Riser) (c : CallId) : Steady s (s.leaveWait r c) := steady_modSlots _ _ _

theorem steady_reserve (s : State) (r : Riser) (k : Slot) (c : CallId) : Steady s (s.reserve r k c) :=
  steady_modSlots _ _ _

theorem steady_connect (s : State) (c : CallId) (a b : Endpoint) : Steady s (s.connect c a b) := by
  unfold State.connect
  dsimp only
  split
  · exact steady_setCross _ _
  · exact .refl s

theorem steady_breakCall (s : State) (c : CallId) : Steady s (s.breakCall c) := steady_setCross _ _

theorem steady_breakLine (s : State) (l : LineNo) : Steady s (s.breakLine l) := steady_setCross _ _

theorem steady_connectConsole (s : State) (l : LineNo) (c : CallId) : Steady s (s.connectConsole l c) := by
  unfold State.connectConsole
  repeat' split
  all_goals first
    | exact steady_connect _ _ _ _
    | exact .refl s

/-! ### ENDING and completion -/

theorem steady_complete (s : State) (c : CallId) : Steady s (s.complete c) := by
  unfold State.complete
  split
  · exact ((steady_returnSlots s c).trans (steady_offer _ _)).trans (steady_freeCall _ _)
  · exact .refl s

theorem steady_leaveWaiting (s : State) (c : CallId) (x : Call) : Steady s (s.leaveWaiting c x) := by
  unfold State.leaveWaiting
  split
  · exact (steady_leaveWait _ _ _).trans (steady_dropReservations _ _)
  · exact (steady_setDeskQueue _ _).trans (steady_sendFrame _ _ _)
  · exact .refl s

theorem steady_stopMembers : ∀ (ms : List Member) (s : State), Steady s (stopMembers ms s)
  | [], s => .refl s
  | _ :: ms, s => ((steady_indicate s _ _).trans (steady_setLine _ _ _)).trans (steady_stopMembers ms _)

theorem steady_stopRinging (s : State) (c : CallId) : Steady s (s.stopRinging c) := by
  unfold State.stopRinging
  split
  · exact ((steady_stopCadence s c).trans (steady_stopMembers _ _)).trans (steady_modCall _ _ _)
  · exact .refl s

theorem steady_clearParties (c : CallId) : ∀ (hs : List Handset) (s : State), Steady s (clearParties c hs s).2
  | [], s => .refl s
  | h :: hs, s => by
    unfold clearParties
    split
    · exact ((steady_sendClear s h c).trans (steady_setLine _ _ _)).trans (steady_clearParties c hs _)
    · exact steady_clearParties c hs s

theorem steady_busyOrigin (s : State) (x : Call) : Steady s (s.busyOrigin x) := by
  unfold State.busyOrigin
  split
  · split
    · exact steady_tone _ _ _
    · exact .refl s
  · exact .refl s

theorem steady_tellEnded (s : State) (x : Call) (cause : Cause) : Steady s (s.tellEnded x cause) := by
  unfold State.tellEnded
  dsimp only
  have h : Steady s (match x.origin with
      | .entrance e => s.tellEntrance e (.ended cause)
      | _ => s) := by
    split
    · exact steady_tellEntrance _ _ _
    · exact .refl s
  split
  · exact h.trans ((steady_tellLine _ _ _).trans (steady_setConsole _ _ _))
  · exact h

theorem steady_unwind (s : State) (c : CallId) (x : Call) (cause : Cause) : Steady s (s.unwind c x cause).2 :=
  (((((steady_leaveWaiting s c x).trans (steady_breakCall _ c)).trans (steady_stopRinging _ c)).trans
    (steady_clearParties c x.parties _)).trans (steady_busyOrigin _ x)).trans (steady_tellEnded _ x cause)

theorem steady_endCall (s : State) (c : CallId) (cause : Cause) : Steady s (s.endCall c cause) := by
  unfold State.endCall
  split
  · exact .refl s
  · next x _ =>
    split
    · exact .refl s
    · dsimp only
      have h := (steady_unwind s c x cause).trans (steady_modCall _ c fun y =>
        y.toEnding cause (s.unwind c x cause).1)
      split <;> split
      · exact (h.trans (steady_raiseUrgent _)).trans (steady_complete _ _)
      · exact h.trans (steady_complete _ _)
      · exact h.trans (steady_raiseUrgent _)
      · exact h

theorem steady_settleClear (s : State) (c : CallId) (h : Handset) : Steady s (s.settleClear c h) := by
  unfold State.settleClear
  split
  · split
    · dsimp only
      split
      · exact (steady_modCall _ _ _).trans (steady_complete _ _)
      · exact steady_modCall _ _ _
    · exact .refl s
  · exact .refl s

/-! ### The desk queue, TALK and forwarding -/

theorem steady_joinDesk (s : State) (c : CallId) : Steady s (s.joinDesk c) := by
  unfold State.joinDesk
  dsimp only
  split
  · exact (((steady_modCall _ _ _).trans (steady_setDeskQueue _ _)).trans (steady_sendFrame _ _ _)).trans
      (steady_tellWaiting _ _)
  · exact (steady_modCall _ _ _).trans (steady_setDeskQueue _ _)

theorem steady_joinParty (s : State) (x : Call) (h : Handset) : Steady s (s.joinParty x h) := by
  unfold State.joinParty
  dsimp only
  split
  · exact (steady_setLine _ _ _).trans (steady_sendSlot _ _ _)
  · exact steady_setLine _ _ _

theorem steady_tellConnected (s : State) (x : Call) : Steady s (s.tellConnected x) := by
  unfold State.tellConnected
  split
  · exact steady_tellEntrance _ _ _
  · exact steady_tellLine _ _ _
  · exact .refl s

theorem steady_connectAnswered (s : State) (c : CallId) (x : Call) (h : Handset) :
    Steady s (s.connectAnswered c x h) := by
  unfold State.connectAnswered
  repeat' split
  all_goals first
    | exact steady_connect _ _ _ _
    | exact steady_connectConsole _ _ _
    | exact .refl s

theorem steady_answer (s : State) (c : CallId) (h : Handset) : Steady s (s.answer c h) := by
  unfold State.answer
  split
  · exact .refl s
  · next x _ =>
    dsimp only
    refine Steady.trans ?_ ((steady_connectAnswered _ c x h).trans (steady_tellConnected _ x))
    have h4 := (((((steady_stopCadence s c).trans (steady_modCall _ c fun y =>
      { y with state := s.talkState x, latency := some (tenths (x.offerMs.getD 0)), offerMs := none,
               answering := some h, ringSet := [], talkMs := some 0 })).trans (steady_indicate _ h .ringStop)).trans
      (steady_stopMembers (x.ringSet.filter fun m => m.handset != h) _)).trans (steady_joinParty _ x h))
    split
    · exact h4.trans (steady_joinParty _ _ _)
    · exact h4

theorem steady_claimGranted (s : State) (c : CallId) : Steady s (s.claimGranted c) := by
  unfold State.claimGranted
  split
  · exact .refl s
  · next x _ =>
    dsimp only
    have h1 := steady_modCall s c fun y =>
      { y with state := s.talkState x, claim := false, waitKind := none, waitMs := 0, talkMs := some 0 }
    have h2 : Steady s (match x.origin with
        | .handset o => (s.modCall c fun y =>
            { y with state := s.talkState x, claim := false, waitKind := none, waitMs := 0,
                     talkMs := some 0 }).joinParty x o
        | _ => s.modCall c fun y =>
            { y with state := s.talkState x, claim := false, waitKind := none, waitMs := 0, talkMs := some 0 }) := by
      split
      · exact h1.trans (steady_joinParty _ _ _)
      · exact h1
    split
    · split
      · exact h2.trans ((steady_tellLine _ _ _).trans (steady_connectConsole _ _ _))
      · exact h2.trans (steady_tellLine _ _ _)
    · exact h2

theorem steady_takeStep (s : State) (c : CallId) : Steady s (s.takeStep c).2 := by
  unfold State.takeStep
  split
  · split <;> exact steady_modCall _ _ _
  · exact .refl s

theorem steady_leaveGranted (s : State) (r : Riser) (c : CallId) : Steady s (s.leaveGranted r c) :=
  ((steady_leaveWait s r c).trans (steady_dropReservations _ _)).trans (steady_modCall _ _ _)

theorem steady_handOver (s : State) (c : CallId) : Steady s (s.handOver c).1 := by
  unfold State.handOver
  split
  · split
    · exact steady_claimGranted _ _
    · exact .refl s
  · exact .refl s

theorem steady_serveReservation (s : State) (r : Riser) (k : Slot) (c : CallId) :
    Steady s (s.serveReservation r k c).1 := by
  unfold State.serveReservation
  split
  · exact ((steady_grant _ _ _ _).trans (steady_leaveGranted _ _ _)).trans (steady_handOver _ _)
  · exact steady_dropReservations _ _

theorem steady_dealWith (s : State) (r : Riser) (c : CallId) (skipped : List CallId) :
    Steady s (s.dealWith r c skipped).1 := by
  unfold State.dealWith
  split
  · exact ((steady_grantLowest _ _ _).trans (steady_leaveGranted _ _ _)).trans (steady_handOver _ _)
  · split
    · exact (((steady_grantLowest _ _ _).trans (steady_grantLowest _ _ _)).trans (steady_leaveGranted _ _ _)).trans
        (steady_handOver _ _)
    · split
      · exact ((steady_leaveWait _ _ _).trans (steady_joinWait _ _ _)).trans (steady_modCall _ _ _)
      · exact .refl s

theorem steady_choose (s : State) (r : Riser) (skipped : List CallId) (follow : Bool) :
    Steady s (s.choose r skipped follow).1 := by
  unfold State.choose
  split
  · split
    · exact steady_serveReservation _ _ _ _
    · split
      · exact steady_dealWith _ _ _ _
      · exact .refl s
  · exact .refl s

theorem steady_showMembers (o : Origin) : ∀ (hs : List Handset) (s : State), Steady s (showMembers o hs s)
  | [], s => .refl s
  | _ :: hs, s => ((steady_setLine s _ _).trans (steady_indicate _ _ _)).trans (steady_showMembers o hs _)

theorem steady_enterRinging (s : State) (c : CallId) : Steady s (s.enterRinging c).1 := by
  unfold State.enterRinging
  split
  · exact .refl s
  · next x _ =>
    dsimp only
    repeat' split
    all_goals first
      | exact steady_modCall _ _ _
      | exact (((steady_modCall _ _ _).trans (steady_showMembers _ _ _)).trans (steady_startCadence _ _)).trans
          (steady_tellRinging _ _)

theorem steady_forward (s : State) (c : CallId) (st : Step) : Steady s (s.forward c st).1 := by
  unfold State.forward
  split
  · exact (steady_returnSlots _ _).trans (steady_joinDesk _ _)
  · split
    · split
      · exact .refl s
      · exact steady_returnSlots _ _
    · exact .refl s

theorem steady_ringTimeout (s : State) (c : CallId) : Steady s (s.ringTimeout c).1 := by
  unfold State.ringTimeout
  split
  · exact .refl s
  · split
    · dsimp only
      have h := steady_stopRinging s c
      split
      · have k := h.trans (steady_takeStep _ c)
        split
        · next st s2 e => rw [e] at k; exact k.trans (steady_forward _ _ _)
        · next s2 e => rw [e] at k; exact k.trans (steady_endCall _ _ _)
      · exact h.trans (steady_endCall _ _ _)
    · exact .refl s

theorem steady_preempt (s : State) (r : Riser) (c : CallId) : Steady s (s.preempt r c) := by
  unfold State.preempt
  split
  · split
    · split
      · exact (steady_reserve _ _ _ _).trans (steady_endCall _ _ _)
      · exact .refl s
    · exact .refl s
  · exact .refl s

theorem steady_placeInWait (s : State) (r : Riser) (c : CallId) : Steady s (s.placeInWait r c) :=
  (steady_modCall _ _ _).trans (steady_joinWait _ _ _)

theorem steady_request (s : State) (c : CallId) : Steady s (s.request c).1 := by
  unfold State.request
  dsimp only
  repeat' split
  all_goals first
    | exact .refl s
    | exact steady_endCall _ _ _
    | exact steady_grantAll _ _ _
    | exact ((steady_placeInWait _ _ _).trans (steady_tellWaiting _ _)).trans (steady_preempt _ _ _)

/-! ### Everything one event sets off -/

theorem steady_doTask (t : Task) (s : State) : Steady s (doTask t s).1 := by
  unfold doTask
  split
  · split <;> exact .refl s
  · exact steady_choose _ _ _ _
  · exact .refl s
  · split <;> exact .refl s
  · exact steady_enterRinging _ _
  · exact steady_ringTimeout _ _
  · exact steady_request _ _

theorem steady_runTasks : ∀ (fuel : Nat) (ts : List Task) (s : State), Steady s (runTasks fuel ts s)
  | 0, _, s => .refl s
  | _ + 1, [], s => .refl s
  | fuel + 1, t :: ts, s => by
    unfold runTasks
    split
    · exact steady_runTasks fuel _ _
    · exact ((steady_doTask t s).trans (steady_clearDue _)).trans (steady_runTasks fuel _ _)

/-- Whatever an event sets off leaves alone what `Steady` names. -/
theorem steady_cascade (s : State) (ts : List Task) : Steady s (s.cascade ts) :=
  (steady_clearDue s).trans (steady_runTasks _ _ _)

/-- A member that leaves its ring set (R4, R9) leaves alone what `Steady` names. -/
theorem steady_leaveRingSet (s : State) (h : Handset) : Steady s (s.leaveRingSet h).1 := by
  unfold State.leaveRingSet
  split
  · dsimp only
    split <;> exact steady_withdraw _ _ _
  · exact .refl s

theorem steady_leaveRinging (s : State) (h : Handset) : Steady s (s.leaveRinging h).1 :=
  ((steady_leaveRingSet s h).trans (steady_indicate _ _ _)).trans (steady_setLine _ _ _)

/-- KEY URGENT in RINGING leaves alone what `Steady` names, up to the origination (R9). -/
theorem steady_leaveForUrgent (h : Handset) : ∀ (n : Nat) (s : State), Steady s (s.leaveForUrgent n h).1
  | 0, s => steady_leaveRinging s h
  | n + 1, s => by
    have left := (steady_leaveRinging s h).trans (steady_cascade (s.leaveRinging h).1 (s.leaveRinging h).2)
    unfold State.leaveForUrgent
    dsimp only
    split
    · exact steady_leaveRinging s h
    · split
      · exact left.trans (steady_leaveForUrgent h n _)
      · exact left

/-! ### The choice of the next use of a bus -/

/-- What the choice of a bus's next use leaves alone (R115). -/
def BusKept (u v : RiserControl) : Prop :=
  v.presence = u.presence ∧ v.missed = u.missed ∧ v.pause = u.pause ∧ v.parityErrors = u.parityErrors ∧
  v.wordErrors = u.wordErrors ∧ v.survey.map Survey.replied = u.survey.map Survey.replied

theorem BusKept.refl (u : RiserControl) : BusKept u u := ⟨rfl, rfl, rfl, rfl, rfl, rfl⟩

theorem busKept_attentionPoll (u : RiserControl) : BusKept u u.attentionPoll := by
  unfold RiserControl.attentionPoll
  split
  · exact ⟨rfl, rfl, rfl, rfl, rfl, rfl⟩
  · exact .refl u

theorem busKept_surveyProbe (u : RiserControl) : BusKept u u.surveyProbe := by
  unfold RiserControl.surveyProbe
  split
  · exact ⟨rfl, rfl, rfl, rfl, rfl, by cases u.survey <;> rfl⟩
  · exact .refl u

theorem busKept_extraPoll (u : RiserControl) : BusKept u u.extraPoll := by
  unfold RiserControl.extraPoll
  repeat' split
  all_goals first
    | exact busKept_surveyProbe u
    | exact busKept_attentionPoll u

theorem busKept_regularPoll (u : RiserControl) : BusKept u u.regularPoll := by
  unfold RiserControl.regularPoll
  split
  · exact ⟨rfl, rfl, rfl, rfl, rfl, rfl⟩
  · split
    · exact busKept_extraPoll u
    · exact ⟨rfl, rfl, rfl, rfl, rfl, rfl⟩

theorem busKept_choose (u : RiserControl) : BusKept u u.choose := by
  unfold RiserControl.choose
  repeat' split
  all_goals first
    | exact ⟨rfl, rfl, rfl, rfl, rfl, rfl⟩
    | exact busKept_extraPoll u
    | exact busKept_regularPoll u

theorem busKept_kick (u : RiserControl) : BusKept u u.kick := by
  unfold RiserControl.kick
  repeat' split
  all_goals first
    | exact .refl u
    | exact busKept_choose u

theorem steady_kick (s : State) (r : Riser) : Steady s (s.kick r) := by
  unfold State.kick
  split
  · exact steady_modRiser s r _ (fun u => (busKept_kick u).1) (fun u => (busKept_kick u).2.1)
      (fun u => (busKept_kick u).2.2.1) (fun u => (busKept_kick u).2.2.2.1)
      (fun u => (busKept_kick u).2.2.2.2.1) fun u => (busKept_kick u).2.2.2.2.2
  · exact .refl s

theorem steady_kickAll (s : State) : Steady s s.kickAll :=
  (((steady_kick s 0).trans (steady_kick _ 1)).trans (steady_kick _ 2)).trans (steady_kick _ 3)

/-- The end of a command that may set off calls leaves alone what `Steady` names. -/
theorem steady_settle (s : State) (ts : List Task) : Steady s (s.settle ts) :=
  (steady_cascade s ts).trans (steady_kickAll _)

/-- A kick leaves every block but the riser controllers as it is. -/
theorem kickAll_other (s : State) :
    s.kickAll.ctl = s.ctl ∧ s.kickAll.arb = s.arb ∧ s.kickAll.ring = s.ring ∧ s.kickAll.desk = s.desk ∧
    s.kickAll.links = s.links ∧ s.kickAll.mgmt = s.mgmt := by
  have k : ∀ (t : State) (r : Riser), (t.kick r).ctl = t.ctl ∧ (t.kick r).arb = t.arb ∧ (t.kick r).ring = t.ring ∧
      (t.kick r).desk = t.desk ∧ (t.kick r).links = t.links ∧ (t.kick r).mgmt = t.mgmt := by
    intro t r
    unfold State.kick
    split <;> exact ⟨rfl, rfl, rfl, rfl, rfl, rfl⟩
  obtain ⟨a0, b0, c0, d0, e0, f0⟩ := k s 0
  obtain ⟨a1, b1, c1, d1, e1, f1⟩ := k (s.kick 0) 1
  obtain ⟨a2, b2, c2, d2, e2, f2⟩ := k ((s.kick 0).kick 1) 2
  obtain ⟨a3, b3, c3, d3, e3, f3⟩ := k (((s.kick 0).kick 1).kick 2) 3
  exact ⟨a3.trans (a2.trans (a1.trans a0)), b3.trans (b2.trans (b1.trans b0)), c3.trans (c2.trans (c1.trans c0)),
    d3.trans (d2.trans (d1.trans d0)), e3.trans (e2.trans (e1.trans e0)), f3.trans (f2.trans (f1.trans f0))⟩

end Sys2Proof.Machine
end

