-- ==== Sys2Proof/Laws/Ends.lean ====
section
/-! SUPPORT. What the end of a call leaves of it (R27, R29), what an event sets off when no grant event is due or no
call waits, and that no grant event stays due. -/

namespace Sys2Proof.Machine

-- Theorems one after the other: side by side, their threads would not fit in the memory that one file may use.
set_option Elab.async false

open Sys2Proof

/-! ### Operations that write no call record -/

theorem sendFrame_ctl (s : State) (l : Link) (f : Frame) : (s.sendFrame l f).ctl = s.ctl := rfl

theorem indicate_ctl (s : State) (h : Handset) (i : Indication) : (s.indicate h i).ctl = s.ctl := by
  unfold State.indicate
  split <;> rfl

theorem sendClear_ctl (s : State) (h : Handset) (c : CallId) : (s.sendClear h c).ctl = s.ctl := by
  unfold State.sendClear
  split <;> rfl

theorem sendSlot_ctl (s : State) (h : Handset) (k : Slot) : (s.sendSlot h k).ctl = s.ctl := by
  unfold State.sendSlot
  split <;> rfl

theorem offer_ctl (s : State) (n : Notice) : (s.offer n).ctl = s.ctl := rfl

theorem raise_ctl (s : State) (k : Condition) : (s.raise k).ctl = s.ctl := by
  unfold State.raise
  split <;> rfl

theorem setLine_calls (s : State) (h : Handset) (v : LineState) : (s.setLine h v).ctl.calls = s.ctl.calls := by
  unfold State.setLine
  dsimp only
  split
  · rfl
  · split <;> rfl

theorem stopMembers_calls : ∀ (ms : List Member) (s : State), (stopMembers ms s).ctl.calls = s.ctl.calls
  | [], _ => rfl
  | _ :: ms, _ => by
    unfold stopMembers
    rw [stopMembers_calls ms, setLine_calls, indicate_ctl]

theorem silenceMembers_ctl : ∀ (ms : List Member) (s : State), (silenceMembers ms s).ctl = s.ctl
  | [], _ => rfl
  | _ :: ms, _ => (silenceMembers_ctl ms _).trans rfl

theorem clearParties_calls (c : CallId) :
    ∀ (hs : List Handset) (s : State), (clearParties c hs s).2.ctl.calls = s.ctl.calls
  | [], _ => rfl
  | h :: hs, s => by
    unfold clearParties
    split
    · dsimp only
      rw [clearParties_calls c hs, setLine_calls, sendClear_ctl]
    · exact clearParties_calls c hs s

theorem leaveWaiting_ctl (s : State) (c : CallId) (x : Call) : (s.leaveWaiting c x).ctl = s.ctl := by
  unfold State.leaveWaiting
  split <;> rfl

theorem busyOrigin_ctl (s : State) (x : Call) : (s.busyOrigin x).ctl = s.ctl := by
  unfold State.busyOrigin
  split
  · split
    · exact indicate_ctl _ _ _
    · rfl
  · rfl

theorem tellEnded_ctl (s : State) (x : Call) (k : Cause) : (s.tellEnded x k).ctl = s.ctl := by
  unfold State.tellEnded
  dsimp only
  split <;> split <;> rfl

theorem call?_of_calls {s t : State} (h : t.ctl.calls = s.ctl.calls) (c : CallId) : t.call? c = s.call? c := by
  unfold State.call?
  rw [h]

/-! ### Slots going back -/

theorem freeSlots_ctl : ∀ (ps : List (Riser × Slot)) (s : State), (ps.foldl State.freeSlot s).ctl = s.ctl
  | [], _ => rfl
  | p :: ps, s => (freeSlots_ctl ps (s.freeSlot p)).trans rfl

/-- A call that returns its slots keeps everything else; the other records are as they were (R29). -/
theorem returnSlots_call? (s : State) (c d : CallId) :
    (s.returnSlots c).call? d = if c = d then (s.call? d).map fun y => { y with slots := [] } else s.call? d := by
  unfold State.returnSlots
  split
  · next x hx => rw [State.modCall_call?, call?_of_calls (congrArg CallControl.calls (freeSlots_ctl x.slots s))]
  · next hx =>
    by_cases g : c = d
    · rw [if_pos g, ← g, hx]; rfl
    · rw [if_neg g]

/-- A completed call's record is FREE, and the others are as they were (R29). -/
theorem complete_call? (s : State) (c d : CallId) :
    (s.complete c).call? d = if c = d then none else s.call? d := by
  unfold State.complete
  split
  · next x hx =>
    rw [State.setCall_call?]
    by_cases g : c = d
    · rw [if_pos g, if_pos g]
    · rw [if_neg g, if_neg g, call?_of_calls (congrArg CallControl.calls (offer_ctl (s.returnSlots c) _)), returnSlots_call?, if_neg g]
  · next hx =>
    by_cases g : c = d
    · rw [if_pos g, ← g, hx]
    · rw [if_neg g]

/-! ### The end of a call -/

/-- A call out of its ringing: the ringing fields cleared, the skipped segments counted (R79). -/
def Call.unrung (x : Call) : Call :=
  { x with ringSet := [], skippedTotal := satAdd x.skippedTotal (skippedOf x.ringSet), segment := none, cycles := 0 }

/-- The end of a ringing changes the ringing fields of its call, and no other record (R27, R79). -/
theorem stopRinging_call? (s : State) (c d : CallId) :
    (s.stopRinging c).call? d = if c = d then (s.call? d).map Call.unrung else s.call? d := by
  unfold State.stopRinging
  split
  · next x hx =>
    rw [State.modCall_call?, call?_of_calls (stopMembers_calls x.ringSet (s.stopCadence c))]
    unfold State.stopCadence
    rw [hx]
    dsimp only
    rw [State.modCall_call?, call?_of_calls (congrArg CallControl.calls (silenceMembers_ctl x.ringSet s))]
    by_cases g : c = d
    · rw [if_pos g, if_pos g, if_pos g, ← g, hx]; rfl
    · rw [if_neg g, if_neg g, if_neg g]
  · next hx =>
    by_cases g : c = d
    · rw [if_pos g, ← g, hx]; rfl
    · rw [if_neg g]

/-- Steps 1 to 7 of R27 change the ringing fields of their call, and no other record. -/
theorem unwind_call? (s : State) (c d : CallId) (x : Call) (k : Cause) :
    (s.unwind c x k).2.call? d = if c = d then (s.call? d).map Call.unrung else s.call? d := by
  have h : (s.unwind c x k).2.ctl.calls = (((s.leaveWaiting c x).breakCall c).stopRinging c).ctl.calls := by
    unfold State.unwind
    dsimp only
    rw [tellEnded_ctl, busyOrigin_ctl, clearParties_calls]
  have g : ((s.leaveWaiting c x).breakCall c).ctl.calls = s.ctl.calls :=
    congrArg CallControl.calls (leaveWaiting_ctl s c x)
  rw [call?_of_calls h, stopRinging_call?, call?_of_calls g]

/-- The end of a live call (R27 to R29): what becomes of its record, and that no other record changes. -/
theorem endCall_call? (s : State) (c d : CallId) (k : Cause) (x : Call) (hx : s.call? c = some x)
    (live : x.state ≠ .ending) :
    (s.endCall c k).call? d =
      if c = d then
        if (s.unwind c x k).1.isEmpty then none else some (x.unrung.toEnding k (s.unwind c x k).1)
      else s.call? d := by
  have raise : ∀ (t : State) (q : Condition) (b : Bool) (e : CallId),
      (if b then t.raise q else t).call? e = t.call? e := by
    intro t q b e
    split
    · exact call?_of_calls (congrArg CallControl.calls (raise_ctl t q)) e
    · rfl
  unfold State.endCall
  rw [hx]
  dsimp only
  rw [if_neg live]
  by_cases g : c = d
  · subst g
    split
    · rw [complete_call?, if_pos rfl, if_pos rfl]
    · rw [raise, State.modCall_call?, if_pos rfl, if_pos rfl, unwind_call?, if_pos rfl, hx]; rfl
  · rw [if_neg g]
    split
    · rw [complete_call?, if_neg g, raise, State.modCall_call?, if_neg g, unwind_call?, if_neg g]
    · rw [raise, State.modCall_call?, if_neg g, unwind_call?, if_neg g]

/-- A call that is FREE or in ENDING is left as it is (R1, R26). -/
theorem endCall_idle (s : State) (c : CallId) (k : Cause) (h : ∀ x, s.call? c = some x → x.state = .ending) :
    s.endCall c k = s := by
  unfold State.endCall
  split
  · rfl
  · next x hx => rw [if_pos (h x hx)]

/-- No other record changes when a call ends. -/
theorem endCall_other (s : State) (c d : CallId) (k : Cause) (g : c ≠ d) : (s.endCall c k).call? d = s.call? d := by
  cases hx : s.call? c with
  | none => rw [endCall_idle s c k (by simp [hx])]
  | some x =>
    by_cases e : x.state = .ending
    · rw [endCall_idle s c k (by simp [hx, e])]
    · rw [endCall_call? s c d k x hx e, if_neg g]

/-- A call without a handset party has no CLEAR queued at its end (R27). -/
theorem unwind_pend (s : State) (c : CallId) (x : Call) (k : Cause) (h : x.parties = []) :
    (s.unwind c x k).1 = [] := by
  unfold State.unwind
  rw [h]
  rfl

/-! ### The CALL-END notice -/

theorem indicate_mgmt (s : State) (h : Handset) (i : Indication) : (s.indicate h i).mgmt = s.mgmt := by
  unfold State.indicate
  split <;> rfl

theorem sendClear_mgmt (s : State) (h : Handset) (c : CallId) : (s.sendClear h c).mgmt = s.mgmt := by
  unfold State.sendClear
  split <;> rfl

theorem setLine_mgmt (s : State) (h : Handset) (v : LineState) : (s.setLine h v).mgmt = s.mgmt := by
  unfold State.setLine
  dsimp only
  split
  · rfl
  · split <;> rfl

theorem stopMembers_mgmt : ∀ (ms : List Member) (s : State), (stopMembers ms s).mgmt = s.mgmt
  | [], _ => rfl
  | _ :: ms, _ => by
    unfold stopMembers
    rw [stopMembers_mgmt ms, setLine_mgmt, indicate_mgmt]

theorem silenceMembers_mgmt : ∀ (ms : List Member) (s : State), (silenceMembers ms s).mgmt = s.mgmt
  | [], _ => rfl
  | _ :: ms, _ => (silenceMembers_mgmt ms _).trans rfl

theorem stopRinging_mgmt (s : State) (c : CallId) : (s.stopRinging c).mgmt = s.mgmt := by
  unfold State.stopRinging
  split
  · rw [State.modCall_mgmt, stopMembers_mgmt]
    unfold State.stopCadence
    split
    · rw [State.modCall_mgmt, silenceMembers_mgmt]
    · rfl
  · rfl

theorem clearParties_mgmt (c : CallId) : ∀ (hs : List Handset) (s : State), (clearParties c hs s).2.mgmt = s.mgmt
  | [], _ => rfl
  | h :: hs, s => by
    unfold clearParties
    split
    · dsimp only
      rw [clearParties_mgmt c hs, setLine_mgmt, sendClear_mgmt]
    · exact clearParties_mgmt c hs s

/-- Steps 1 to 7 of R27 touch no notice, condition, window or mask. -/
theorem unwind_mgmt (s : State) (c : CallId) (x : Call) (k : Cause) : (s.unwind c x k).2.mgmt = s.mgmt := by
  have e : ∀ (t : State), (t.tellEnded x k).mgmt = t.mgmt := by
    intro t
    unfold State.tellEnded
    dsimp only
    split <;> split <;> rfl
  have b : ∀ (t : State), (t.busyOrigin x).mgmt = t.mgmt := by
    intro t
    unfold State.busyOrigin
    split
    · split
      · exact indicate_mgmt _ _ _
      · rfl
    · rfl
  have w : (s.leaveWaiting c x).mgmt = s.mgmt := by
    unfold State.leaveWaiting
    split <;> rfl
  unfold State.unwind
  dsimp only
  rw [e, b, clearParties_mgmt, stopRinging_mgmt]
  exact w

theorem returnSlots_mgmt (s : State) (c : CallId) : (s.returnSlots c).mgmt = s.mgmt := by
  have f : ∀ (ps : List (Riser × Slot)) (t : State), (ps.foldl State.freeSlot t).mgmt = t.mgmt := by
    intro ps
    induction ps with
    | nil => exact fun _ => rfl
    | cons p ps ih => exact fun t => (ih (t.freeSlot p)).trans rfl
  unfold State.returnSlots
  split
  · rw [State.modCall_mgmt, f]
  · rfl

/-- A CALL-END notice reaches a queue with room for it when its kind is not masked (R29, R183). -/
theorem complete_notice (s : State) (c : CallId) (x : Call) (hx : s.call? c = some x)
    (mask : s.mgmt.mask.getLsbD 0 = true) (room : s.mgmt.notices.length < 16) :
    Notice.callEnd (s.callEndOf c x) ∈ (s.complete c).mgmt.notices := by
  unfold State.complete
  rw [hx]
  show _ ∈ (((s.returnSlots c).offer (.callEnd (s.callEndOf c x))).setCall c none).mgmt.notices
  rw [State.setCall_mgmt, State.offer_mgmt, returnSlots_mgmt]
  rcases s.mgmt.offer_cases (.callEnd (s.callEndOf c x)) with ⟨m, _⟩ | ⟨_, _, e⟩ | ⟨_, g, _⟩
  · rw [show (Notice.callEnd (s.callEndOf c x)).kind - 1 = 0 from rfl, mask] at m
    cases m
  · rw [e]
    exact List.mem_append_right _ (List.mem_singleton.mpr rfl)
  · omega

theorem raise_room (s : State) (k : Condition) : (s.raise k).mgmt.notices.length ≤ s.mgmt.notices.length + 1 := by
  unfold State.raise
  split
  · omega
  · rcases (s.setCondition true k).mgmt.offer_cases (.condition k) with ⟨_, e⟩ | ⟨_, _, e⟩ | ⟨_, _, e⟩ <;>
      rw [State.offer_mgmt, e]
    · exact Nat.le_succ _
    · exact Nat.le_of_eq List.length_append
    · exact Nat.le_succ _

/-- A call without a handset party completes as it ends, with a CALL-END notice that carries its cause (R27, R29). -/
theorem endCall_free (s : State) (c : CallId) (k : Cause) (x : Call) (hx : s.call? c = some x)
    (live : x.state ≠ .ending) (alone : x.parties = []) : (s.endCall c k).call? c = none := by
  rw [endCall_call? s c c k x hx live, if_pos rfl, if_pos (by rw [unwind_pend s c x k alone]; rfl)]

theorem endCall_notice (s : State) (c : CallId) (k : Cause) (x : Call) (hx : s.call? c = some x)
    (live : x.state ≠ .ending) (alone : x.parties = []) (mask : s.mgmt.mask.getLsbD 0 = true)
    (room : s.mgmt.notices.length ≤ 14) :
    ∃ e : CallEnd, Notice.callEnd e ∈ (s.endCall c k).mgmt.notices ∧ e.record = c ∧ e.cause = k ∧ e.cls = x.cls ∧
      e.origin = x.origin ∧ e.latency = x.latency ∧ e.doorReleased = x.doorReleased := by
  have p := unwind_pend s c x k alone
  have m := unwind_mgmt s c x k
  have q : ∀ t : State, (t.call? c = some (x.unrung.toEnding k [])) → t.mgmt.mask.getLsbD 0 = true →
      t.mgmt.notices.length < 16 →
      ∃ e : CallEnd, Notice.callEnd e ∈ (t.complete c).mgmt.notices ∧ e.record = c ∧ e.cause = k ∧ e.cls = x.cls ∧
        e.origin = x.origin ∧ e.latency = x.latency ∧ e.doorReleased = x.doorReleased :=
    fun t ht h1 h2 => ⟨_, complete_notice t c _ ht h1 h2, rfl, rfl, rfl, rfl, rfl, rfl⟩
  have w : ((s.unwind c x k).2.modCall c fun y => y.toEnding k []).call? c = some (x.unrung.toEnding k []) := by
    rw [State.modCall_call?, if_pos rfl, unwind_call?, if_pos rfl, hx]; rfl
  unfold State.endCall
  rw [hx]
  dsimp only
  rw [if_neg live, p]
  show ∃ e : CallEnd, Notice.callEnd e ∈ (State.complete _ c).mgmt.notices ∧ _
  split
  · refine q _ ?_ ?_ ?_
    · rw [call?_of_calls (congrArg CallControl.calls (raise_ctl _ _)), w]
    · rw [(steady_raiseUrgent _).mask, State.modCall_mgmt, m, mask]
    · refine Nat.lt_of_le_of_lt (raise_room _ _) ?_
      rw [State.modCall_mgmt, m]
      omega
  · refine q _ w ?_ ?_
    · rw [State.modCall_mgmt, m, mask]
    · rw [State.modCall_mgmt, m]
      omega

/-- A call that has ended and is still live is in ENDING with its cause (R27). -/
theorem endCall_ending (s : State) (c : CallId) (k : Cause) (x y : Call) (hx : s.call? c = some x)
    (live : x.state ≠ .ending) (hy : (s.endCall c k).call? c = some y) : y.state = .ending ∧ y.cause = some k := by
  rw [endCall_call? s c c k x hx live, if_pos rfl] at hy
  split at hy
  · cases hy
  · cases hy
    exact ⟨rfl, rfl⟩

theorem indicate_arb (s : State) (h : Handset) (i : Indication) : (s.indicate h i).arb = s.arb := by
  unfold State.indicate
  split <;> rfl

theorem sendClear_arb (s : State) (h : Handset) (c : CallId) : (s.sendClear h c).arb = s.arb := by
  unfold State.sendClear
  split <;> rfl

theorem setLine_arb (s : State) (h : Handset) (v : LineState) : (s.setLine h v).arb = s.arb := by
  unfold State.setLine
  dsimp only
  split
  · rfl
  · split <;> rfl

theorem stopMembers_arb : ∀ (ms : List Member) (s : State), (stopMembers ms s).arb = s.arb
  | [], _ => rfl
  | _ :: ms, _ => by
    unfold stopMembers
    rw [stopMembers_arb ms, setLine_arb, indicate_arb]

theorem silenceMembers_arb : ∀ (ms : List Member) (s : State), (silenceMembers ms s).arb = s.arb
  | [], _ => rfl
  | _ :: ms, _ => (silenceMembers_arb ms _).trans rfl

theorem stopRinging_arb (s : State) (c : CallId) : (s.stopRinging c).arb = s.arb := by
  unfold State.stopRinging
  split
  · rw [State.modCall_arb, stopMembers_arb]
    unfold State.stopCadence
    split
    · rw [State.modCall_arb, silenceMembers_arb]
    · rfl
  · rfl

theorem clearParties_arb (c : CallId) : ∀ (hs : List Handset) (s : State), (clearParties c hs s).2.arb = s.arb
  | [], _ => rfl
  | h :: hs, s => by
    unfold clearParties
    split
    · dsimp only
      rw [clearParties_arb c hs, setLine_arb, sendClear_arb]
    · exact clearParties_arb c hs s

/-- Dropping reservations leaves the wait lists. -/
theorem dropReservations_wait (s : State) (c : CallId) (q : Riser) :
    ((s.dropReservations c).arb.risers[q]).wait = (s.arb.risers[q]).wait := by
  show ((updAll s.arb.risers _)[q]).wait = _
  rw [updAll_get]

/-- A call out of a riser's wait list (R57). -/
theorem leaveWait_wait (s : State) (r q : Riser) (c : CallId) :
    ((s.leaveWait r c).arb.risers[q]).wait =
      if r = q then (s.arb.risers[q]).wait.filter fun d => d != c else (s.arb.risers[q]).wait := by
  unfold State.leaveWait
  rw [State.modSlots_get]
  split <;> rfl

theorem unwind_noWaiters (s : State) (c : CallId) (x : Call) (k : Cause) (h : NoWaiters s) :
    NoWaiters (s.unwind c x k).2 := by
  have e : ∀ (t : State), (t.tellEnded x k).arb = t.arb := by
    intro t
    unfold State.tellEnded
    dsimp only
    split <;> split <;> rfl
  have b : ∀ (t : State), (t.busyOrigin x).arb = t.arb := by
    intro t
    unfold State.busyOrigin
    split
    · split
      · exact indicate_arb _ _ _
      · rfl
    · rfl
  have w : NoWaiters ((s.leaveWaiting c x).breakCall c) := by
    unfold State.leaveWaiting
    split
    · next r _ =>
      intro q
      show (((s.leaveWait r c).dropReservations c).arb.risers[q]).wait = []
      rw [dropReservations_wait, leaveWait_wait, h q]
      split <;> rfl
    · exact h
    · exact h
  intro q
  have g : (s.unwind c x k).2.arb = ((s.leaveWaiting c x).breakCall c).arb := by
    unfold State.unwind
    dsimp only
    rw [e, b, clearParties_arb, stopRinging_arb]
  rw [g]
  exact w q

theorem freeSlots_wait (q : Riser) : ∀ (ps : List (Riser × Slot)) (t : State),
    ((ps.foldl State.freeSlot t).arb.risers[q]).wait = (t.arb.risers[q]).wait
  | [], _ => rfl
  | p :: ps, t => (freeSlots_wait q ps (t.freeSlot p)).trans (upd_keeps t.arb.risers p.1 q _ (·.wait) fun _ => rfl)

theorem complete_noWaiters (s : State) (c : CallId) (h : NoWaiters s) : NoWaiters (s.complete c) := by
  intro q
  unfold State.complete
  split
  · next x hx =>
    show ((s.returnSlots c).arb.risers[q]).wait = []
    unfold State.returnSlots
    rw [hx]
    dsimp only
    rw [State.modCall_arb, freeSlots_wait]
    exact h q
  · exact h q

/-- The end of a call puts no call in a wait list. -/
theorem endCall_noWaiters (s : State) (c : CallId) (k : Cause) (h : NoWaiters s) : NoWaiters (s.endCall c k) := by
  have m : ∀ (t : State) (f : Call → Call), NoWaiters t → NoWaiters (t.modCall c f) := by
    intro t f ht q
    rw [State.modCall_arb]
    exact ht q
  have r : ∀ (t : State) (q : Condition), NoWaiters t → NoWaiters (t.raise q) := by
    intro t q ht z
    have e : (t.raise q).arb = t.arb := by
      unfold State.raise
      split <;> rfl
    rw [e]
    exact ht z
  unfold State.endCall
  split
  · exact h
  · next x _ =>
    split
    · exact h
    · dsimp only
      have u := m _ (fun y => y.toEnding k (s.unwind c x k).1) (unwind_noWaiters s c x k h)
      split <;> split
      · exact complete_noWaiters _ _ (r _ _ u)
      · exact complete_noWaiters _ _ u
      · exact r _ _ u
      · exact u

/-! ### What an event sets off -/

/-- With no grant event due and no task, nothing follows. -/
theorem cascade_idle (s : State) (h : s.arb.due = []) : s.cascade [] = s := by
  have k : s.clearDue = s := by
    cases s with
    | mk ctl dir arb ring desk risers links doors meas feeds supply mgmt store startup pending =>
      cases arb
      simp only at h
      subst h
      rfl
  unfold State.cascade
  rw [h, k]
  rfl

theorem runTasks_due : ∀ (fuel : Nat) (ts : List Task) (s : State), s.arb.due = [] → (runTasks fuel ts s).arb.due = []
  | 0, _, _, h => h
  | _ + 1, [], _, h => h
  | fuel + 1, t :: ts, s, h => by
    unfold runTasks
    split
    · exact runTasks_due fuel _ _ h
    · exact runTasks_due fuel _ _ rfl

/-- After a command no grant event is due (R60). -/
theorem settle_due (s : State) (ts : List Task) : (s.settle ts).arb.due = [] := by
  show ((s.cascade ts).kickAll).arb.due = []
  rw [(kickAll_other _).2.1]
  exact runTasks_due _ _ _ rfl

/-- With no grant event due, a command without tasks ends with the choice of each free bus's next use alone. -/
theorem settle_idle (s : State) (h : s.arb.due = []) : s.settle [] = s.kickAll := by
  unfold State.settle
  rw [cascade_idle s h]

/-- Tasks that a grant event leads to while no call waits: they touch reservations alone. -/
def Task.onlyChooses : Task → Bool
  | .grantEvent _ _ => true
  | .choose _ _ _ => true
  | .lookAt _ _ => true
  | _ => false

/-- What a grant event leaves alone while no call waits. -/
def GrantKept (s t : State) : Prop :=
  t.ctl = s.ctl ∧ t.ring = s.ring ∧ t.desk = s.desk ∧ t.risers = s.risers ∧ t.links = s.links ∧ t.mgmt = s.mgmt ∧
  t.arb.cross = s.arb.cross ∧ NoWaiters t

theorem doTask_noWaiters (t : Task) (s : State) (ht : t.onlyChooses = true) (h : NoWaiters s) :
    GrantKept s (doTask t s).1 ∧ ∀ u ∈ (doTask t s).2, u.onlyChooses = true := by
  have same : GrantKept s s := ⟨rfl, rfl, rfl, rfl, rfl, rfl, rfl, h⟩
  cases t with
  | grantEvent r follow =>
    unfold doTask
    dsimp only
    split
    · refine ⟨same, ?_⟩
      intro u hu
      rw [List.mem_singleton.mp hu]; rfl
    · exact ⟨same, fun u hu => by cases hu⟩
  | choose r skipped follow =>
    show GrantKept s (s.choose r skipped follow).1 ∧ ∀ u ∈ (s.choose r skipped follow).2, u.onlyChooses = true
    unfold State.choose
    split
    · split
      · next k c _ =>
        have e : s.serveReservation r k c = (s.dropReservations c, []) := by
          unfold State.serveReservation
          rw [h r]
          rfl
        rw [e]
        refine ⟨⟨rfl, rfl, rfl, rfl, rfl, rfl, rfl, ?_⟩, ?_⟩
        · intro q
          show ((updAll s.arb.risers _)[q]).wait = []
          rw [updAll_get]
          exact h q
        · intro u hu
          rw [List.mem_singleton.mp hu]; rfl
      · rw [h r]
        show GrantKept s s ∧ ∀ u ∈ (if follow then [Task.lookAt r (allRisers.filter fun z => z != r)] else []), u.onlyChooses = true
        refine ⟨same, ?_⟩
        intro u hu
        split at hu
        · rw [List.mem_singleton.mp hu]; rfl
        · cases hu
    · exact ⟨same, fun u hu => by cases hu⟩
  | lookAt r zs =>
    cases zs with
    | nil => exact ⟨same, fun u hu => by cases hu⟩
    | cons z zs =>
      unfold doTask
      dsimp only
      split
      · refine ⟨same, ?_⟩
        intro u hu
        rcases List.mem_cons.mp hu with e | hu
        · rw [e]; rfl
        · rw [List.mem_singleton.mp hu]; rfl
      · refine ⟨same, ?_⟩
        intro u hu
        rw [List.mem_singleton.mp hu]; rfl
  | ring c => cases ht
  | ringTimeout c => cases ht
  | request c => cases ht

theorem putAfterChoice_only (r : Riser) (event : Task) (he : event.onlyChooses = true) :
    ∀ ts : List Task, (∀ u ∈ ts, u.onlyChooses = true) → ∀ u ∈ putAfterChoice r event ts, u.onlyChooses = true
  | [], _, u, hu => by
    rw [List.mem_singleton.mp hu]; exact he
  | t :: ts, h, u, hu => by
    unfold putAfterChoice at hu
    split at hu
    · rcases List.mem_cons.mp hu with e | hu
      · exact h u (e ▸ List.mem_cons_self)
      · rcases List.mem_cons.mp hu with e | hu
        · rw [e]; exact he
        · exact h u (List.mem_cons_of_mem _ hu)
    · rcases List.mem_cons.mp hu with e | hu
      · exact h u (e ▸ List.mem_cons_self)
      · exact putAfterChoice_only r event he ts (fun v hv => h v (List.mem_cons_of_mem _ hv)) u hu

theorem placeDue_only (rs : List Riser) (ts : List Task) (h : ∀ u ∈ ts, u.onlyChooses = true) :
    ∀ u ∈ placeDue rs ts, u.onlyChooses = true := by
  intro u hu
  rcases List.mem_append.mp hu with hu | hu
  · obtain ⟨r, _, e⟩ := List.mem_map.mp hu
    rw [← e]; rfl
  · exact h u hu

theorem runTasks_noWaiters : ∀ (fuel : Nat) (ts : List Task) (s : State), (∀ u ∈ ts, u.onlyChooses = true) →
    NoWaiters s → GrantKept s (runTasks fuel ts s)
  | 0, _, _, _, h => ⟨rfl, rfl, rfl, rfl, rfl, rfl, rfl, h⟩
  | _ + 1, [], _, _, h => ⟨rfl, rfl, rfl, rfl, rfl, rfl, rfl, h⟩
  | fuel + 1, t :: ts, s, ht, h => by
    unfold runTasks
    split
    · exact runTasks_noWaiters fuel _ s
        (putAfterChoice_only _ t (ht t List.mem_cons_self) ts fun u hu => ht u (List.mem_cons_of_mem _ hu)) h
    · obtain ⟨⟨a, b, c, d, e, f, g, w⟩, n⟩ := doTask_noWaiters t s (ht t List.mem_cons_self) h
      have only : ∀ u ∈ placeDue (doTask t s).1.arb.due ((doTask t s).2 ++ ts), u.onlyChooses = true := by
        apply placeDue_only
        intro u hu
        rcases List.mem_append.mp hu with hu | hu
        · exact n u hu
        · exact ht u (List.mem_cons_of_mem _ hu)
      obtain ⟨a', b', c', d', e', f', g', w'⟩ := runTasks_noWaiters fuel _ (doTask t s).1.clearDue only w
      exact ⟨a'.trans a, b'.trans b, c'.trans c, d'.trans d, e'.trans e, f'.trans f, g'.trans g, w'⟩

/-- While no call waits for a slot, grant events change no call, line, sounding set, message, frame or notice. -/
theorem cascade_noWaiters (s : State) (h : NoWaiters s) : GrantKept s (s.cascade []) := by
  obtain ⟨a, b, c, d, e, f, g, w⟩ := runTasks_noWaiters cascadeFuel (placeDue s.arb.due []) s.clearDue
    (placeDue_only _ _ fun u hu => by cases hu) h
  exact ⟨a, b, c, d, e, f, g, w⟩

/-- The same for the end of a command: only reservations, grant events and the use of the buses change. -/
theorem settle_noWaiters (s : State) (h : NoWaiters s) :
    (s.settle []).ctl = s.ctl ∧ (s.settle []).ring = s.ring ∧ (s.settle []).desk = s.desk ∧
    (s.settle []).links = s.links ∧ (s.settle []).mgmt = s.mgmt ∧ (s.settle []).arb.cross = s.arb.cross := by
  obtain ⟨a, b, c, _, e, f, g, _⟩ := cascade_noWaiters s h
  obtain ⟨k1, k2, k3, k4, k5, k6⟩ := kickAll_other (s.cascade [])
  exact ⟨k1.trans a, k3.trans b, k4.trans c, k5.trans e, k6.trans f, (congrArg Arbiter.cross k2).trans g⟩

/-- A live call ended, with everything its end sets off (R27 to R29). -/
theorem ends_settle (s : State) (c : CallId) (k : Cause) (x : Call) (hx : s.call? c = some x)
    (live : x.state ≠ .ending) : Ends c k s ((s.endCall c k).settle []) where
  steady := (steady_endCall s c k).trans (steady_settle _ _)
  free y hy alone := by
    rw [hx] at hy
    cases hy
    exact (steady_settle _ _).free (endCall_free s c k x hx live alone)
  notice y hy alone mask room := by
    rw [hx] at hy
    cases hy
    obtain ⟨e, he, r⟩ := endCall_notice s c k x hx live alone mask room
    exact ⟨e, (steady_settle _ _).notices.subset he, r⟩
  ending h y hy := by
    rw [call?_of_calls (congrArg CallControl.calls (settle_noWaiters _ (endCall_noWaiters s c k h)).1)] at hy
    exact endCall_ending s c k x y hx live hy

end Sys2Proof.Machine
end

