-- ==== Sys2Proof/Laws/PerInstr.lean ====
section
/-! SUPPORT. What is shown of each command as syntax, one lemma per constructor: the frame of a well-formed command is a
SIGNAL or a MANAGE frame whose body fits the 60 bytes of spec/13, 13.1. -/

namespace Sys2Proof.Laws

-- Theorems one after the other: side by side, their threads would not fit in the memory that one file may use.
set_option Elab.async false

open Sys2Proof Sys2Proof.Machine

/-- The frame of a well-formed command, where it has one, is of kind SIGNAL or MANAGE and its body has 1 to 60 bytes. -/
def WireCode.Statement (i : Instr) : Prop :=
  i.wellFormed = true → ∀ f, frameOf i = some f → (f.2.1 = 1 ∨ f.2.1 = 2) ∧ 1 ≤ f.2.2.length ∧ f.2.2.length ≤ 60

/-- A command that no frame brings. -/
theorem wire_none {i : Instr} (h : frameOf i = none) : WireCode.Statement i :=
  fun _ _ hf => absurd (h.symm.trans hf) (Option.some_ne_none _).symm

/-- A command whose frame is known. -/
theorem wire_some {i : Instr} {l : Link} {kind : Byte} {body : List Byte} (h : frameOf i = some (l, kind, body))
    (hk : kind = 1 ∨ kind = 2) (h1 : Nat.ble 1 body.length = true) (h2 : Nat.ble body.length 60 = true) :
    WireCode.Statement i :=
  fun _ _ hf => Option.some.inj (h.symm.trans hf) ▸ ⟨hk, Nat.le_of_ble_eq_true h1, Nat.le_of_ble_eq_true h2⟩

theorem WireCode.coldStart : ∀ contacts, WireCode.Statement (.coldStart contacts) := fun _ => wire_none rfl

theorem WireCode.firstSupplyMode : WireCode.Statement (.firstSupplyMode) := wire_none rfl

theorem WireCode.startupSwitchOn : WireCode.Statement (.startupSwitchOn) := wire_none rfl

theorem WireCode.restart : ∀ src tag, WireCode.Statement (.restart src tag) :=
  fun _ _ => wire_some rfl (.inr rfl) rfl rfl

theorem WireCode.frameDiscarded : ∀ l, WireCode.Statement (.frameDiscarded l) := fun _ => wire_none rfl

theorem WireCode.frameAbandoned : ∀ l, WireCode.Statement (.frameAbandoned l) := fun _ => wire_none rfl

theorem WireCode.statusReceived : ∀ l, WireCode.Statement (.statusReceived l) := fun _ => wire_none rfl

theorem WireCode.signalDisregarded : ∀ l, WireCode.Statement (.signalDisregarded l) := fun _ => wire_none rfl

theorem WireCode.livenessTimerExpiry : ∀ l, WireCode.Statement (.livenessTimerExpiry l) := fun _ => wire_none rfl

theorem WireCode.statusDue : ∀ l, WireCode.Statement (.statusDue l) := fun _ => wire_none rfl

theorem WireCode.frameSent : ∀ l, WireCode.Statement (.frameSent l) := fun _ => wire_none rfl

theorem WireCode.noticeTaken : WireCode.Statement (.noticeTaken) := wire_none rfl

theorem WireCode.call : ∀ e code, WireCode.Statement (.call e code) := fun _ _ => wire_some rfl (.inl rfl) rfl rfl

theorem WireCode.callDesk : ∀ e, WireCode.Statement (.callDesk e) := fun _ => wire_some rfl (.inl rfl) rfl rfl

theorem WireCode.cancel : ∀ e, WireCode.Statement (.cancel e) := fun _ => wire_some rfl (.inl rfl) rfl rfl

theorem WireCode.deskCall : ∀ code, WireCode.Statement (.deskCall code) := fun _ => wire_some rfl (.inl rfl) rfl rfl

theorem WireCode.deskAnswer : ∀ rec, WireCode.Statement (.deskAnswer rec) := fun _ => wire_some rfl (.inl rfl) rfl rfl

theorem WireCode.deskHold : ∀ line, WireCode.Statement (.deskHold line) := fun _ => wire_some rfl (.inl rfl) rfl rfl

theorem WireCode.deskResume : ∀ line, WireCode.Statement (.deskResume line) :=
  fun _ => wire_some rfl (.inl rfl) rfl rfl

theorem WireCode.deskEnd : ∀ line, WireCode.Statement (.deskEnd line) := fun _ => wire_some rfl (.inl rfl) rfl rfl

theorem WireCode.deskRelease : ∀ entrance, WireCode.Statement (.deskRelease entrance) :=
  fun _ => wire_some rfl (.inl rfl) rfl rfl

theorem WireCode.deskOpen : WireCode.Statement (.deskOpen) := wire_some rfl (.inl rfl) rfl rfl

theorem WireCode.deskClose : WireCode.Statement (.deskClose) := wire_some rfl (.inl rfl) rfl rfl

theorem WireCode.manageEmptyBody : ∀ l, WireCode.Statement (.manageEmptyBody l) := fun _ => wire_none rfl

theorem WireCode.manageUnknownRequest : ∀ src tag code badTable, WireCode.Statement (.manageUnknownRequest src tag code badTable) :=
  fun _ _ _ _ => wire_none rfl

theorem WireCode.readEntry : ∀ src tag table index, WireCode.Statement (.readEntry src tag table index) :=
  fun src tag table index => by
  cases h : tableKnown table with
  | true => exact wire_some (if_pos h) (.inr rfl) rfl rfl
  | false => exact wire_none (if_neg (by simp [h]))

theorem WireCode.writeEntryDirectory : ∀ src tag index w, WireCode.Statement (.writeEntryDirectory src tag index w) :=
  fun src tag index w hw f h => by
  have hl : w.nodes.length + w.steps.length + w.label.length ≤ 47 := of_decide_eq_true hw
  obtain rfl := Option.some.inj h
  simp [bytesOf, countedBytes]
  omega

theorem WireCode.clearEntryDirectory : ∀ src tag index, WireCode.Statement (.clearEntryDirectory src tag index) :=
  fun _ _ _ => wire_some rfl (.inr rfl) rfl rfl

theorem WireCode.writeEntryHandset : ∀ src tag index w, WireCode.Statement (.writeEntryHandset src tag index w) :=
  fun _ _ _ _ => wire_some rfl (.inr rfl) rfl rfl

theorem WireCode.clearEntryHandset : ∀ src tag index, WireCode.Statement (.clearEntryHandset src tag index) :=
  fun _ _ _ => wire_some rfl (.inr rfl) rfl rfl

theorem WireCode.writeEntryClass : ∀ src tag index w, WireCode.Statement (.writeEntryClass src tag index w) :=
  fun _ _ _ _ => wire_some rfl (.inr rfl) rfl rfl

theorem WireCode.clearEntryClass : ∀ src tag index, WireCode.Statement (.clearEntryClass src tag index) :=
  fun _ _ _ => wire_some rfl (.inr rfl) rfl rfl

theorem WireCode.writeEntryProfile : ∀ src tag index w, WireCode.Statement (.writeEntryProfile src tag index w) :=
  fun _ _ _ _ => wire_some rfl (.inr rfl) rfl rfl

theorem WireCode.clearEntryProfile : ∀ src tag index, WireCode.Statement (.clearEntryProfile src tag index) :=
  fun _ _ _ => wire_some rfl (.inr rfl) rfl rfl

theorem WireCode.writeEntryDoor : ∀ src tag index w, WireCode.Statement (.writeEntryDoor src tag index w) :=
  fun _ _ _ _ => wire_some rfl (.inr rfl) rfl rfl

theorem WireCode.clearEntryDoor : ∀ src tag index, WireCode.Statement (.clearEntryDoor src tag index) :=
  fun _ _ _ => wire_some rfl (.inr rfl) rfl rfl

theorem WireCode.writeEntryRiser : ∀ src tag index w, WireCode.Statement (.writeEntryRiser src tag index w) :=
  fun _ _ _ _ => wire_some rfl (.inr rfl) rfl rfl

theorem WireCode.clearEntryRiser : ∀ src tag index, WireCode.Statement (.clearEntryRiser src tag index) :=
  fun _ _ _ => wire_some rfl (.inr rfl) rfl rfl

theorem WireCode.writeEntrySupply : ∀ src tag index w, WireCode.Statement (.writeEntrySupply src tag index w) :=
  fun _ _ _ _ => wire_some rfl (.inr rfl) rfl rfl

theorem WireCode.clearEntrySupply : ∀ src tag index, WireCode.Statement (.clearEntrySupply src tag index) :=
  fun _ _ _ => wire_some rfl (.inr rfl) rfl rfl

theorem WireCode.queryCalls : ∀ src tag start, WireCode.Statement (.queryCalls src tag start) :=
  fun _ _ _ => wire_some rfl (.inr rfl) rfl rfl

theorem WireCode.queryStatus : ∀ src tag section_ which, WireCode.Statement (.queryStatus src tag section_ which) :=
  fun _ _ _ _ => wire_some rfl (.inr rfl) rfl rfl

theorem WireCode.clearCondition : ∀ src tag cond inst, WireCode.Statement (.clearCondition src tag cond inst) :=
  fun _ _ _ _ => wire_some rfl (.inr rfl) rfl rfl

theorem WireCode.setMask : ∀ src tag mask, WireCode.Statement (.setMask src tag mask) :=
  fun _ _ _ => wire_some rfl (.inr rfl) rfl rfl

theorem WireCode.doorRelease : ∀ src tag entrance, WireCode.Statement (.doorRelease src tag entrance) :=
  fun _ _ _ => wire_some rfl (.inr rfl) rfl rfl

theorem WireCode.callClear : ∀ src tag rec, WireCode.Statement (.callClear src tag rec) :=
  fun _ _ _ => wire_some rfl (.inr rfl) rfl rfl

theorem WireCode.riserFeed : ∀ src tag riser onOff, WireCode.Statement (.riserFeed src tag riser onOff) :=
  fun _ _ _ _ => wire_some rfl (.inr rfl) rfl rfl

theorem WireCode.riserSurvey : ∀ src tag riser, WireCode.Statement (.riserSurvey src tag riser) :=
  fun _ _ _ => wire_some rfl (.inr rfl) rfl rfl

theorem WireCode.serviceWindow : ∀ src tag entrance minutes, WireCode.Statement (.serviceWindow src tag entrance minutes) :=
  fun _ _ _ _ => wire_some rfl (.inr rfl) rfl rfl

theorem WireCode.manageDeskOpen : ∀ src tag, WireCode.Statement (.manageDeskOpen src tag) :=
  fun _ _ => wire_some rfl (.inr rfl) rfl rfl

theorem WireCode.manageDeskClose : ∀ src tag, WireCode.Statement (.manageDeskClose src tag) :=
  fun _ _ => wire_some rfl (.inr rfl) rfl rfl

theorem WireCode.save : ∀ src tag, WireCode.Statement (.save src tag) := fun _ _ => wire_some rfl (.inr rfl) rfl rfl

theorem WireCode.saveEraseDone : WireCode.Statement (.saveEraseDone) := wire_none rfl

theorem WireCode.savePageWritten : ∀ equal, WireCode.Statement (.savePageWritten equal) := fun _ => wire_none rfl

theorem WireCode.saveMarkWritten : ∀ equal, WireCode.Statement (.saveMarkWritten equal) := fun _ => wire_none rfl

theorem WireCode.serviceWindowExpiry : ∀ e, WireCode.Statement (.serviceWindowExpiry e) := fun _ => wire_none rfl

theorem WireCode.pollPauseEnd : ∀ r, WireCode.Statement (.pollPauseEnd r) := fun _ => wire_none rfl

theorem WireCode.noneReply : ∀ r n, WireCode.Statement (.noneReply r n) := fun _ _ => wire_none rfl

theorem WireCode.hookOff : ∀ r n, WireCode.Statement (.hookOff r n) := fun _ _ => wire_none rfl

theorem WireCode.hookOn : ∀ r n, WireCode.Statement (.hookOn r n) := fun _ _ => wire_none rfl

theorem WireCode.keyDoor : ∀ r n, WireCode.Statement (.keyDoor r n) := fun _ _ => wire_none rfl

theorem WireCode.keyDesk : ∀ r n, WireCode.Statement (.keyDesk r n) := fun _ _ => wire_none rfl

theorem WireCode.dial : ∀ r n code, WireCode.Statement (.dial r n code) := fun _ _ _ => wire_none rfl

theorem WireCode.keyUrgent : ∀ r n, WireCode.Statement (.keyUrgent r n) := fun _ _ => wire_none rfl

theorem WireCode.keyPrivacy : ∀ r n, WireCode.Statement (.keyPrivacy r n) := fun _ _ => wire_none rfl

theorem WireCode.missedPoll : ∀ r f, WireCode.Statement (.missedPoll r f) := fun _ _ => wire_none rfl

theorem WireCode.ack : ∀ r n code, WireCode.Statement (.ack r n code) := fun _ _ _ => wire_none rfl

theorem WireCode.commandNoAck : ∀ r f, WireCode.Statement (.commandNoAck r f) := fun _ _ => wire_none rfl

theorem WireCode.surveyProbe : ∀ r p, WireCode.Statement (.surveyProbe r p) := fun _ _ => wire_none rfl

theorem WireCode.cadenceSegmentEnd : ∀ c, WireCode.Statement (.cadenceSegmentEnd c) := fun _ => wire_none rfl

theorem WireCode.talkWarning : ∀ c, WireCode.Statement (.talkWarning c) := fun _ => wire_none rfl

theorem WireCode.talkLimit : ∀ c, WireCode.Statement (.talkLimit c) := fun _ => wire_none rfl

theorem WireCode.queueLimit : ∀ c, WireCode.Statement (.queueLimit c) := fun _ => wire_none rfl

theorem WireCode.deskQueueLimit : ∀ c, WireCode.Statement (.deskQueueLimit c) := fun _ => wire_none rfl

theorem WireCode.delayEnd : ∀ e, WireCode.Statement (.delayEnd e) := fun _ => wire_none rfl

theorem WireCode.driveEnd : ∀ e, WireCode.Statement (.driveEnd e) := fun _ => wire_none rfl

theorem WireCode.graceExpiry : ∀ e, WireCode.Statement (.graceExpiry e) := fun _ => wire_none rfl

theorem WireCode.doorOpening : ∀ e, WireCode.Statement (.doorOpening e) := fun _ => wire_none rfl

theorem WireCode.doorClosing : ∀ e, WireCode.Statement (.doorClosing e) := fun _ => wire_none rfl

theorem WireCode.heldTimerExpiry : ∀ e, WireCode.Statement (.heldTimerExpiry e) := fun _ => wire_none rfl

theorem WireCode.feedVoltageConversion : ∀ r c, WireCode.Statement (.feedVoltageConversion r c) :=
  fun _ _ => wire_none rfl

theorem WireCode.feedCurrentConversion : ∀ r c, WireCode.Statement (.feedCurrentConversion r c) :=
  fun _ _ => wire_none rfl

theorem WireCode.batteryConversion : ∀ c, WireCode.Statement (.batteryConversion c) := fun _ => wire_none rfl

theorem WireCode.debouncedMainsChange : ∀ present, WireCode.Statement (.debouncedMainsChange present) :=
  fun _ => wire_none rfl

theorem WireCode.settleEnd : ∀ r, WireCode.Statement (.settleEnd r) := fun _ => wire_none rfl

theorem WireCode.retryExpiry : ∀ r, WireCode.Statement (.retryExpiry r) := fun _ => wire_none rfl

theorem WireCode.stableExpiry : ∀ r, WireCode.Statement (.stableExpiry r) := fun _ => wire_none rfl

theorem WireCode.doorContactSample : ∀ e high, WireCode.Statement (.doorContactSample e high) :=
  fun _ _ => wire_none rfl

theorem WireCode.mainsSenseSample : ∀ present, WireCode.Statement (.mainsSenseSample present) :=
  fun _ => wire_none rfl

end Sys2Proof.Laws
end

