-- ==== Sys2Proof/Tests/Slice0.lean ====
section
/-! SUPPORT. The tests: what WellFormed refuses, words and frames written out from spec/13, worked figures of the spec,
and for each statement with premises a concrete state that meets them, clause by clause. -/

namespace Sys2Proof.Tests

-- Theorems one after the other: side by side, their threads would not fit in the memory that one file may use.
set_option Elab.async false

open Sys2Proof Sys2Proof.Machine

/-! ### Small states -/

/-- Node address `n + 1` of riser A. -/
def hA (n : Node) : Handset := { riser := 0, node := n }

/-- An apartment without a label. -/
def flat (code : BitVec 16) (r : Riser) (ns : List Node) (chain : List Machine.Step) : Apartment :=
  { code := code, riser := r, nodes := ns, chain := chain, hasPrivacy := false, label := [] }

/-- FULL, every feed ON, every link UP, the desk open, every handset enrolled and PRESENT. Index 0 is apartment 101 with
A1 and A2, which forwards to index 1, apartment 102 with B1; index 2 is apartment 103 with A3. -/
def day : State :=
  { State.reset with
    dir := { State.reset.dir with
      entries := put (put (put State.reset.dir.entries 0 (some (flat 101 0 [0, 1] [.apartment 1]))) 1
        (some (flat 102 1 [0] []))) 2 (some (flat 103 0 [2] []))
      handsets := Vector.replicate 4 (Vector.replicate 60 { enrolled := true, load := 60 }) }
    risers := Vector.replicate 4 { RiserControl.reset with presence := Vector.replicate 60 .present, use := .idle }
    links := Vector.replicate 7 { LinkUnit.reset with up := true, liveness := some 2999 }
    feeds := Vector.replicate 4 { Feed.reset with state := .onNormal, stable := some 30000 }
    meas := { Measurement.reset with battery := { filtered := 650, seed := false } }
    supply := { Supply.reset with samples := [true, true], mains := some true, mode := some .full }
    desk := { State.reset.desk with isOpen := true }
    mgmt := { State.reset.mgmt with notices := [] }
    startup := none }

/-- The bus of riser A polls node `n`. -/
def polls (n : Node) (s : State) : State := s.modRiser 0 fun u => { u with use := .regularPoll n, useMs := 2 }

/-- A call from entrance E0 to apartment 101. -/
def visitor : Call := { day.newCall .visitor (.entrance 0) (.apartment 0) with original := some 0 }

/-- C0 rings A1 and A2, both sounding, over slot 0 of riser A. -/
def ringing : State :=
  ((((day.setCall 0 (some { visitor with
      state := .ringing, slots := [(0, 0)], segment := some (.on1, 400), offerMs := some 0,
      ringSet := [{ handset := hA 0, sounding := true, load := 60, skipped := 0 },
                  { handset := hA 1, sounding := true, load := 60, skipped := 0 }] })).putLine (hA 0) .ringing).putLine
    (hA 1) .ringing).setSounding 0 [{ node := 0, call := 0, load := 60 }, { node := 1, call := 0, load := 60 }]).modSlots
    0 fun v => { v with cells := put v.cells 0 { holder := some 0, reserved := none }, order := [0] }

/-- C0 in TALK between E0 and A1 over slot 0 of riser A. -/
def talking : State :=
  ((day.setCall 0 (some { visitor with
      state := .talk, slots := [(0, 0)], answering := some (hA 0), latency := some 5, talkMs := some 0 })).putLine (hA 0)
    .connected).modSlots 0 fun v => { v with cells := put v.cells 0 { holder := some 0, reserved := none }, order := [0] }

/-- C0 in ENDING, its CLEAR to A1 in service. -/
def ending : State :=
  ((talking.setCall 0 (some { visitor with
      state := .ending, slots := [(0, 0)], answering := some (hA 0), latency := some 5, talkMs := some 0,
      cause := some .completed, pendingClears := [hA 0] })).putLine (hA 0) .idle).modRiser 0
    fun u => { u with use := .control, useMs := 2, control := [.clear 0 0], controlTry := 1 }

/-- C0, a PANEL-DESK call from E0, waits in the desk queue. -/
def queued : State :=
  (day.setCall 0 (some { day.newCall .panelDesk (.entrance 0) .desk with
    waitKind := some .desk, offerMs := some 0 })).setDeskQueue [0]

/-- C0, a DESK-IN call from the lifted handset A3, waits in the desk queue. -/
def queuedFlat : State :=
  ((day.setCall 0 (some { day.newCall .deskIn (.handset (hA 2)) .desk with
    waitKind := some .desk, offerMs := some 0 })).setDeskQueue [0]).putLine (hA 2) .offhook

/-- C0 from E0 in TALK on the ACTIVE console line 1. -/
def deskTalk : State :=
  ((day.setCall 0 (some { day.newCall .panelDesk (.entrance 0) .desk with
    state := .talk, line := some 0, latency := some 5, talkMs := some 0 })).setConsole 0 (.active 0)).setCross
    [{ a := .line 0, b := .lane 0, call := 0 }]

/-- The same with line 1 on HELD, and C1 from E1 in TALK on line 2. -/
def deskHeld : State :=
  ((((deskTalk.modCall 0 fun x => { x with state := .held }).setConsole 0 (.held 0)).setCall 1
    (some { day.newCall .panelDesk (.entrance 1) .desk with
      state := .talk, line := some 1, latency := some 5, talkMs := some 0 })).setConsole 1 (.active 1)).setCross
    [{ a := .line 1, b := .lane 1, call := 1 }]

/-- C0 waits in the list of riser A, whose four slots are held. -/
def waiting : State :=
  (day.setCall 0 (some { visitor with waitKind := some (.riser 0) })).modSlots 0
    fun v => { v with wait := [0], order := [0, 1, 2, 3],
                      cells := Vector.replicate 4 { holder := some 9, reserved := none } }

/-- Riser A switched off by a short, with A1 LOST. -/
def shorted : State :=
  (day.modFeed 0 fun f => { f with state := .offRetry, retries := 1, retry := some 5000, stable := none }).modRiser 0
    fun u => { u with use := .silent, presence := Vector.replicate 60 .lost }

/-- Every record taken. -/
def full : State := { day with ctl := { day.ctl with calls := Vector.replicate 24 (some visitor) } }

/-- A3 lifted, the bus of riser A polling it. -/
def lifted : State := polls 2 (day.putLine (hA 2) .offhook)

/-- `s` with the four slots of riser A held by another call. -/
def shortA (s : State) : State :=
  s.modSlots 0 fun v =>
    { v with cells := Vector.replicate 4 { holder := some 9, reserved := none }, order := [0, 1, 2, 3] }

/-- `s` with the desk closed. -/
def closed (s : State) : State := { s with desk := { s.desk with isOpen := false } }

/-- `s` with the floor at 4, above the base level of the classes of panels, handsets and lines. -/
def floored (s : State) : State := { s with ctl := { s.ctl with floor := 4 } }

/-- `s` with the class at index `k` off. -/
def without (k : Fin 6) (s : State) : State := s.putClass k { ClassParams.defaults[k] with base := 0 }

/-- `s`, with C1, an URGENT call from A3, in the desk queue and one usable slot a riser. -/
def urgentWaits (s : State) : State :=
  (({ s with arb := { s.arb with usable := 1 } } : State).setCall 1 (some { day.newCall .urgent (.handset (hA 2)) .desk with
    waitKind := some .desk, offerMs := some 4500 })).setDeskQueue [1]

/-- What `exec` answers, `s` itself where it stops. -/
def after (i : Instr) (s : State) : State :=
  match exec i s with
  | .next t => t
  | _ => s

/-- The slot of riser A in the hands of a victim of a class that may pre-empt: one usable slot a riser, and the class
at index `k` of base level 5 with PREEMPT. -/
def preempts (k : Fin 6) (s : State) : State :=
  ({ s with arb := { s.arb with usable := 1 } } : State).putClass k
    { ClassParams.defaults[k] with base := 5, preempt := true, queue := 60 }

/-- What `CallsInOrder` says, in a form that evaluates, of a state without a desk claim. -/
abbrev Orderly (s : State) : Prop :=
  s.arb.due = [] ∧
  (∀ r : Riser, ∀ c ∈ (s.arb.risers[r]).wait,
    (s.call? c).any (fun x => x.state == .waiting && x.waitKind == some (.riser r)) = true) ∧
  (∀ c ∈ s.desk.queue,
    (s.call? c).any (fun x => x.state == .waiting && x.waitKind == some .desk && x.target == .desk) = true) ∧
  (∀ c : CallId, (s.call? c).all (fun x => (x.ringSet.isEmpty || x.state == .ringing) && !x.claim) = true) ∧
  (∀ c : CallId, (s.call? c).all (fun x => decide (∀ d : CallId,
    (s.call? d).all (fun y => c == d || x.origin != y.origin) = true)) = true) ∧
  ∀ c : CallId, (s.call? c).all (fun x => x.state == .ending ||
    (x.consoleLine.all fun l => (s.desk.lines[l]).call? == some c && (s.link .desk).up) &&
      (match x.origin with
       | .entrance e => (s.link (.entrance e)).up
       | _ => true)) = true

theorem Orderly.inOrder {s : State} (h : Orderly s) : CallsInOrder s := by
  obtain ⟨due, wait, queue, each, origin, named⟩ := h
  refine ⟨due, fun r c hc => ?_, fun c hc => ?_, fun c x hx hr => ?_, fun c x hx hl => ?_, fun c d x y hx hy ho _ => ?_,
    fun c x l hx he hl => ?_, fun c x hx he => ⟨fun e ho => ?_, fun l hl => ?_⟩⟩
  · simpa [Option.any_eq_true] using wait r c hc
  · simpa [Option.any_eq_true, and_assoc] using queue c hc
  · have := each c; simp_all
  · have := each c; simp_all
  · have : ∀ d : CallId, (s.call? d).all (fun y => c == d || x.origin != y.origin) = true := by
      have := origin c; simp_all
    have := this d; simp_all
  · have := named c; simp_all
  · have := named c; simp_all
  · have := named c; simp_all

/-- What `SlotsInOrder` says, in a form that evaluates. -/
abbrev Apart (s : State) : Prop :=
  (∀ c : CallId, (s.call? c).all (fun x => decide (x.slots.length ≤ 2) && decide (x.slots.map Prod.fst).Nodup) = true) ∧
  (∀ r : Riser, ∀ c ∈ (s.arb.risers[r]).wait, (s.call? c).all (fun x => x.slots.isEmpty) = true) ∧
  ∀ c ∈ s.desk.queue, (s.call? c).all (fun x => x.slots.isEmpty) = true

theorem Apart.inOrder {s : State} (h : Apart s) : SlotsInOrder s := by
  obtain ⟨apart, wait, queue⟩ := h
  refine ⟨fun c x hx => ?_, fun r c x hc hx => ?_, fun c x hc hx => ?_⟩
  · have := apart c; simp_all [Call.SlotsApart]
  · have := wait r c hc; simp_all
  · have := queue c hc; simp_all

/-- What `RolesInOrder` says, in a form that evaluates. -/
abbrev Cast (s : State) : Prop :=
  (∀ c : CallId, (s.call? c).all (fun x => x.state == .ending || decide (∀ d : CallId,
    (s.call? d).all (fun y => c == d || y.state == .ending || x.handsets.all fun h => !y.handsets.contains h) = true))
      = true) ∧
  ∀ c : CallId, (s.call? c).all (fun x =>
    (x.ringSet.all fun m => s.lineState m.handset == .ringing) &&
    (!x.connected || x.answered) && (!x.claim || x.answered) &&
    (!x.connected || (x.answering.all fun h => s.lineState h == .connected) &&
      (match x.origin with
       | .handset h => s.lineState h == .connected
       | _ => true)) &&
    (!(x.state == .waiting || x.state == .ringing) || x.answering.isNone &&
      (match x.origin with
       | .handset h => s.lineState h == .idle || s.lineState h == .offhook
       | _ => true))) = true

theorem Cast.inOrder {s : State} (h : Cast s) : RolesInOrder s := by
  obtain ⟨one, each⟩ := h
  refine ⟨fun c d x y h hx hy hc hd hh hk => ?_, fun c x hx m hm => ?_, fun c x h hx hc ho => ?_,
    fun c x h hx hw ho => ?_, fun c x hx hw => ?_, fun c x hx hw => ?_⟩
  · have : ∀ d : CallId, (s.call? d).all (fun y =>
        c == d || y.state == .ending || x.handsets.all fun h => !y.handsets.contains h) = true := by
      have := one c; simp_all
    have : c = d ∨ ∀ h ∈ x.handsets, h ∉ y.handsets := by have := this d; simp_all
    exact this.resolve_right fun f => f h hh hk
  · have := each c; simp_all
  · have := each c; rcases ho with ho | ho <;> simp_all
  · have := each c; rcases hw with hw | hw <;> simp_all
  · have := each c; rcases hw with hw | hw <;> simp_all
  · have := each c; rcases hw with hw | hw <;> simp_all

/-- The call table and the calls' slots are in order, no apartment lists more than four nodes and the store holds nothing. -/
def inOrder (s : State) : Bool :=
  decide (Orderly s) && decide (Apart s) && s.dir.entries.toList.all (fun e => e.all fun a => decide (a.nodes.length ≤ 4)) &&
    s.store.pages.isNone

theorem inOrder_spec {s : State} (h : inOrder s = true) : CallsInOrder s ∧ NodesFew s ∧ SlotsInOrder s := by
  simp only [inOrder, Bool.and_eq_true, decide_eq_true_eq, Option.isNone_iff_eq_none] at h
  refine ⟨h.1.1.1.inOrder, ⟨fun i a ha => ?_, fun p hp => by simp_all⟩, h.1.1.2.inOrder⟩
  simpa using List.all_eq_true.1 h.1.2 (some a) (by rw [← ha]; exact Vector.mem_toList_iff.2 (Vector.getElem_mem i.isLt))

/-- The handsets' roles are in order as well. -/
def inCast (s : State) : Bool := inOrder s && decide (Cast s)

theorem inCast_spec {s : State} (h : inCast s = true) : CallsInOrder s ∧ SlotsInOrder s ∧ RolesInOrder s := by
  simp only [inCast, Bool.and_eq_true, decide_eq_true_eq] at h
  exact ⟨(inOrder_spec h.1).1, (inOrder_spec h.1).2.2, h.2.inOrder⟩

/-! ### WellFormed -/

/-- A directory write whose items do not fit a frame is refused, one that just fits is not (spec/13, 13.1). -/
theorem test_wellFormed_directory :
    Instr.wellFormed (.writeEntryDirectory .desk 0 { hi := 0, lo := 0 }
      { used := 1, code := 1, riser := 0, nodes := List.replicate 31 1, steps := [], privacy := 0,
        label := List.replicate 17 65 }) = false ∧
    Instr.wellFormed (.writeEntryDirectory .desk 0 { hi := 0, lo := 0 }
      { used := 1, code := 1, riser := 0, nodes := List.replicate 30 1, steps := [], privacy := 0,
        label := List.replicate 17 65 }) = true := by decide

/-- Only READ-ENTRY, WRITE-ENTRY and CLEAR-ENTRY are refused for their table (check 3 of R176). -/
theorem test_wellFormed_badTable :
    Instr.wellFormed (.manageUnknownRequest .desk 0 4 true) = false ∧
    Instr.wellFormed (.manageUnknownRequest .desk 0 3 true) = true ∧
    Instr.wellFormed (.manageUnknownRequest .desk 0 4 false) = true := by decide

/-! ### Frames and words written out from spec/13 (the checks worked by hand from R193) -/

/-- CALL 101 on an entrance link. -/
theorem test_frame_call :
    receiveAll (.entrance 2) [] [0xA5, 0x01, 0x03, 0x01, 0x00, 0x65, 0x2B, 0xB2] = ([], [.call 2 101]) := by
  decide +kernel

/-- DESK-ANSWER naming no call, with bytes of HUNTING before it; the same body on an entrance link is disregarded. -/
theorem test_frame_answer :
    receiveAll .desk [] [0x00, 0x11, 0xA5, 0x01, 0x02, 0x11, 0xFF, 0xB2, 0xA6] = ([], [.deskAnswer 0xFF]) ∧
    receiveAll (.entrance 0) [] [0xA5, 0x01, 0x02, 0x11, 0xFF, 0xB2, 0xA6] = ([], [.signalDisregarded (.entrance 0)]) := by
  decide +kernel

/-- DESK-CALL 3105; a flipped check bit makes it a discarded frame. -/
theorem test_frame_desk_call :
    receiveAll .desk [] [0xA5, 0x01, 0x03, 0x10, 0x0C, 0x21, 0x12, 0xCC] = ([], [.deskCall 3105]) ∧
    receiveAll .desk [] [0xA5, 0x01, 0x03, 0x10, 0x0C, 0x21, 0x12, 0xCD] = ([], [.frameDiscarded .desk]) := by
  decide +kernel

/-- READ-ENTRY of the handset table, riser A node 5. -/
theorem test_frame_read :
    receiveAll .desk [] [0xA5, 0x02, 0x05, 0x07, 0x01, 0x02, 0x00, 0x05, 0xFD, 0x89] =
      ([], [.readEntry .desk 7 2 { hi := 0, lo := 5 }]) := by decide +kernel

/-- SET-MASK with every kind enabled, and SAVE. -/
theorem test_frame_orders :
    receiveAll (.entrance 5) [] [0xA5, 0x02, 0x04, 0x09, 0x07, 0x01, 0xFF, 0x57, 0x70, 0xA5, 0x02, 0x02, 0x01, 0x0F,
        0xC5, 0x16] = ([], [.setMask (.entrance 5) 9 0x1FF, .save (.entrance 5) 1]) := by decide +kernel

/-- WRITE-ENTRY of cadence profile 3. -/
theorem test_frame_profile :
    receiveAll .desk [] [0xA5, 0x02, 0x09, 0x01, 0x02, 0x04, 0x00, 0x03, 0x08, 0x04, 0x08, 0x14, 0x98, 0x3C] =
      ([], [.writeEntryProfile .desk 1 { hi := 0, lo := 3 } { on1 := 8, off1 := 4, on2 := 8, off2 := 20 }]) := by
  decide +kernel

/-- A length above 60 is discarded at the length byte, and hunting goes on behind it (R136). -/
theorem test_frame_too_long :
    receiveAll .desk [] [0xA5, 0x01, 61, 0x01] = ([], [.frameDiscarded .desk]) := by decide +kernel

/-- HOOK-OFF, KEY URGENT and DIAL 3105 from node address 17: data, marker and parity bits by R194. -/
theorem test_words :
    windowCommand 1 (.regularPoll 16) [0x111, 0x241] = some (.hookOff 1 16) ∧
    windowCommand 1 (.regularPoll 16) [0x111, 0x043, 0x203] = some (.keyUrgent 1 16) ∧
    windowCommand 1 (.regularPoll 16) [0x111, 0x244, 0x20C, 0x221] = some (.dial 1 16 3105) := by decide +kernel

/-- A word of bad parity, a KEY of kind 5, and a window without words (R113, R194). -/
theorem test_words_faulty :
    windowCommand 1 (.regularPoll 16) [0x111, 0x041] = some (.missedPoll 1 .badParity) ∧
    windowCommand 1 (.regularPoll 16) [0x111, 0x043, 0x205] = some (.missedPoll 1 .notValid) ∧
    windowCommand 1 .control [] = some (.commandNoAck 1 .noReply) := by decide +kernel

/-! ### Worked figures of the spec -/

/-- The filter step of spec/09, 9.1.1. -/
theorem test_filter_step :
    let s := after (.feedVoltageConversion 1 560) (day.modVoltage 1 fun _ => { filtered := 600, seed := false })
    s.meas.voltage[1].filtered = 590 ∧ voltageMv 590 = 23600 := by decide +kernel

/-- The effective levels of spec/03, 3.8, at T = 99, 100, 400 and 599 for VISITOR and at 149 and 150 for NEIGHBOUR. -/
theorem test_levels :
    [99, 100, 400, 599].map (fun t => ({ visitor with waitMs := 100 * t } : Call).level) = [2, 3, 6, 6] ∧
    [149, 150].map (fun t =>
      ({ day.newCall .neighbour (.handset (hA 2)) (.apartment 0) with waitMs := 100 * t } : Call).level) = [1, 2] := by
  decide +kernel

/-- The third agreeing ABSENT sample brings RESERVE, half the ring percent and two slots, and the newest sounding
handset is cut back (spec/12, 12.3, with 60 mA each). -/
theorem test_reserve_cuts_back :
    let s := after (.mainsSenseSample false) { ringing with supply := { ringing.supply with samples := [false, false] } }
    s.supply.mode = some .reserve ∧ s.arb.usable = 2 ∧ s.beff 0 = 60 ∧
      s.ring.sounding[0] = [{ node := 0, call := 0, load := 60 }] ∧ s.ctl.floor = 1 := by decide +kernel

/-- A short at 1000 mA takes the feed to OFF-RETRY and ends the ringing call LINE-FAULT at once, with its CALL-END
notice behind the FEED notice (spec/12, 12.4). -/
theorem test_short :
    let s := after (.feedCurrentConversion 0 500) ringing
    s.feeds[0].state = .offRetry ∧ s.feeds[0].retry = some 5000 ∧ s.call? 0 = none ∧ s.soundSum 0 = 0 ∧
      s.mgmt.notices.map Notice.kind = [4, 1] := by decide +kernel

/-- HOOK-OFF from B12 in the first table of spec/01, 1.10, here from A1: TALK, A2 on hook, SLOT to A1. -/
theorem test_answer :
    let s := after (.hookOff 0 0) (polls 0 ringing)
    s.lineState (hA 0) = .connected ∧ s.lineState (hA 1) = .idle ∧ s.soundSum 0 = 0 ∧
      s.risers[0].control = [.slot 0 0] ∧ (s.call? 0).map (·.state) = some .talk ∧
      s.arb.cross = [{ a := .lane 0, b := .slot 0 0, call := 0 }] := by decide +kernel

/-- The last ring cycle of the second table of spec/01, 1.10: the call forwards to the chain's step on another riser. -/
theorem test_ring_timeout_forwards :
    let s := after (.cadenceSegmentEnd 0) (ringing.modCall 0 fun x => { x with segment := some (.off2, 0), cycles := 9 })
    (s.call? 0).map (fun x => (x.state, x.target, x.forwardStep, x.slots)) =
      some (.ringing, .apartment 1, 1, [(1, 0)]) ∧ s.lineState (hA 0) = .idle ∧ s.lineState { riser := 1, node := 0 } =
      .ringing := by decide +kernel

/-- An URGENT claim pre-empts the call of lowest base level and is granted its slot at once (spec/12, 12.3). -/
theorem test_urgent_preempts :
    let s0 := { ringing with arb := { ringing.arb with usable := 1 } }
    let s1 := ((s0.setCall 1 (some { day.newCall .urgent (.handset (hA 2)) .desk with
      waitKind := some .desk, offerMs := some 4500 })).setDeskQueue [1])
    let s := after (.deskAnswer 0xFF) s1
    s.call? 0 = none ∧ (s.call? 1).map (fun x => (x.state, x.slots, x.latency)) = some (.talk, [(0, 0)], some 45) ∧
      s.lineState (hA 2) = .connected ∧ s.desk.lines[0] = .active 1 := by decide +kernel

/-- A door opened in DRIVE is OPEN-AUTH, and one opened with no window open is OPEN-FORCED (R151). -/
theorem test_door_opening :
    (after (.doorOpening 0) (day.modDoor 0 fun d => { d with run := some d.entry.newRun })).doors[0].door = .openAuth ∧
    (after (.doorOpening 0) day).doors[0].door = .openForced := by decide +kernel

/-- KEY URGENT from the only handset that rings: the call it leaves re-rings its next step, on the same riser, before the
URGENT call originates, so A3's SHOW and RING stand before A1's TONE WAIT (R9, R23, R25). -/
theorem test_urgent_leaves_then_originates :
    let s0 := polls 0 ((ringing.modCall 0 fun x => { x with ringSet := x.ringSet.take 1 }).putLine (hA 1) .idle)
    let s1 := { s0 with dir := { s0.dir with entries := put s0.dir.entries 0 (some (flat 101 0 [0, 1] [.apartment 2])) } }
    let s := after (.keyUrgent 0 0) (s1.setSounding 0 [{ node := 0, call := 0, load := 60 }])
    s.risers[0].indications = [{ node := 0, content := .ringStop }, { node := 2, content := .display (.entrance 0) },
      { node := 2, content := .ring .sound }, { node := 0, content := .tone .wait }] ∧
    (s.call? 0).map (fun x => (x.state, x.target, x.slots)) = some (.ringing, .apartment 2, [(0, 0)]) ∧
    s.desk.queue = [1] ∧ s.lineState (hA 0) = .idle := by decide +kernel

/-- A cross-riser NEIGHBOUR call whose own riser is short waits there, not on the target's riser (R53). -/
theorem test_waits_where_short :
    let s0 := (polls 2 (day.putLine (hA 2) .offhook)).modSlots 0 fun v =>
      { v with cells := Vector.replicate 4 { holder := some 9, reserved := none }, order := [0, 1, 2, 3] }
    let s := after (.dial 0 2 102) s0
    (s.call? 0).map (fun x => (x.state, x.waitKind)) = some (.waiting, some (.riser 0)) ∧ s.arb.risers[0].wait = [0] := by
  decide +kernel

/-- Use 5 of spec/06, 6.3.2: with the attention list empty, the probe of address 2 is made although the turn is
ATTENTION, and leaves the turn at SURVEY. -/
theorem test_probe_toggles_turn :
    let s := after (.noneReply 0 4) (day.modRiser 0 fun u =>
      { u with presence := put u.presence 1 .absent, survey := some { next := 1, replied := [] }, lastPoll := .regular,
               use := .regularPoll 4 })
    s.risers[0].use = .probe 1 ∧ s.risers[0].turn = .survey ∧ s.risers[0].lastPoll = .extra := by decide +kernel

/-- An answered poll keeps its bus for the 2 ms of every use (R111). -/
theorem test_answered_poll_lasts :
    let s := after (.noneReply 0 4) (polls 4 day)
    s.risers[0].use = .idle ∧ s.risers[0].useMs = 2 := by decide +kernel

/-- A gap longer than 20 ms inside a frame abandons it (R136). -/
theorem test_gap_abandons :
    let s := day.modLink .desk fun u => { u with received := [0xA5, 0x01], gap := some 1 }
    s.dueEvents.contains (.frameAbandoned .desk) = true ∧
      ((after (.frameAbandoned .desk) { s with pending := [] }).link .desk).received = [] := by decide +kernel

/-! ### The premises of the statements can be met

One theorem for each statement with premises: concrete states and operands, one conjunct or more for each clause. -/

theorem witness_StepTakesFrontCommand :
    ({ day with pending := [.deskOpen, .deskClose] } : State).pending = Instr.deskOpen :: [.deskClose] := rfl

/-- A ringing call, and a bus that polls. -/
theorem witness_IdleStepIsOneMillisecond :
    ringing.pending = [] ∧ (polls 2 ringing).pending = [] ∧ ((polls 2 ringing).risers[(0 : Riser)]).use = .regularPoll 2 :=
  ⟨rfl, rfl, rfl⟩

/-- The sounding loads stand at the whole budget of 120 mA, and a step is taken there. -/
theorem witness_RingBudgetKept :
    RingSafe ringing ∧ ringing.soundSum 0 = ringing.beff 0 ∧
      ∃ t, step { ringing with pending := [.cadenceSegmentEnd 0] } = .next t :=
  ⟨by unfold RingSafe; decide +kernel, by decide +kernel, _, rfl⟩

/-- A notice queue and a desk send list at their bounds. -/
theorem witness_QueueBoundsKept :
    let s : State := { queued with
      mgmt := { queued.mgmt with notices := List.replicate 16 (.restart true) }, pending := [.doorOpening 0] }
    QueuesBounded s ∧ ∃ t, step s = .next t :=
  ⟨⟨by decide +kernel, by decide +kernel, by decide +kernel, by decide +kernel,
    fun l => by cases l with
      | entrance e => exact (by decide +kernel : ∀ e : Entrance, (day.link (.entrance e)).sendList.length ≤ 16) e
      | desk => decide +kernel⟩, _, rfl⟩

theorem witness_TimersAndLinesKept :
    let s : State := { deskTalk with pending := [.settleEnd 0] }
    Supervised s ∧ ∃ t, step s = .next t :=
  ⟨⟨fun l => by cases l with
      | entrance e => exact (by decide +kernel :
          ∀ e : Entrance, (day.link (.entrance e)).liveness.isSome = (day.link (.entrance e)).up) e
      | desk => decide +kernel,
    by decide +kernel, by decide +kernel, by decide +kernel, by decide +kernel, by decide +kernel⟩, _, rfl⟩

/-- Two used entries, on one riser and on two, and apartments of few nodes; an empty directory, from which a step is
taken. -/
theorem witness_DirectoryRulesKept :
    (∃ s t, DirectoryApart s ∧ step s = .next t) ∧ (∃ s t, NodesFew s ∧ s.dir = day.dir ∧ step s = .next t) ∧
      (flat 101 0 [0, 1] []).apart (flat 103 0 [2] []) ∧
      (flat 101 0 [0, 1] []).apart (flat 102 1 [0] []) := by
  refine ⟨⟨State.reset, _, ⟨fun i j a b _ ha => ?_, fun p hp => ?_⟩, rfl⟩,
    ⟨day, _, (inOrder_spec (by decide +kernel)).2.1, rfl, rfl⟩, by unfold Apartment.apart; decide,
    by unfold Apartment.apart; decide⟩
  · simp [State.reset, DirectoryUnit.reset] at ha
  · simp [State.reset, Store.reset] at hp

/-- A call waiting for a slot, one in the desk queue from a lifted handset, one ringing and one in TALK on a line. -/
theorem witness_CallTableKept : ∀ s ∈ [waiting, queuedFlat, ringing, deskTalk],
    CallsInOrder s ∧ SlotsInOrder s ∧ ∃ t, step s = .next t :=
  fun s hs =>
    have h := inOrder_spec ((by decide +kernel : ∀ s ∈ [waiting, queuedFlat, ringing, deskTalk], inOrder s = true) s hs)
    ⟨h.1, h.2.2, by
    simp only [List.mem_cons, List.not_mem_nil, or_false] at hs
    rcases hs with rfl | rfl | rfl | rfl <;> exact ⟨_, rfl⟩⟩

/-- Handsets in a ring set, as a party in TALK and as the origin of a call that waits. -/
theorem witness_HandsetRolesKept : ∀ s ∈ [ringing, talking, queuedFlat],
    CallsInOrder s ∧ SlotsInOrder s ∧ RolesInOrder s ∧ ∃ t, step s = .next t :=
  fun s hs =>
    have h := inCast_spec ((by decide +kernel : ∀ s ∈ [ringing, talking, queuedFlat], inCast s = true) s hs)
    ⟨h.1, h.2.1, h.2.2, by
      simp only [List.mem_cons, List.not_mem_nil, or_false] at hs
      rcases hs with rfl | rfl | rfl <;> exact ⟨_, rfl⟩⟩

/-- A millisecond after reset. -/
theorem witness_ControlQueueBounded : ∃ s, step State.reset = .next s ∧ Reached s :=
  ⟨_, rfl, .step _ _ .reset rfl⟩

theorem witness_NoGrantEventStaysDue : talking.arb.due = [] ∧ ∃ t, step talking = .next t := ⟨rfl, _, rfl⟩

/-- The shortest signal and the longest directory write. -/
theorem witness_FramesReadBack :
    Instr.wellFormed .deskOpen = true ∧ (frameOf .deskOpen).isSome = true ∧
      (let i : Instr := .writeEntryDirectory .desk 0 { hi := 0, lo := 249 }
        { used := 1, code := 9999, riser := 3, nodes := List.replicate 30 60, steps := [255], privacy := 1,
          label := List.replicate 16 0x7E }
      i.wellFormed = true ∧ (frameOf i).isSome = true) := by decide +kernel

/-- The first and the last message code; a word of even parity. -/
theorem witness_ReplyWordsReadBack :
    messageCode 1 = true ∧ messageCode 7 = true ∧ (0 : BitVec 10) ∈ [(0 : BitVec 10)] ∧
      goodParity (0 : BitVec 10) = false := by decide +kernel

/-- A gap just started and one not; a waiting STATUS, none with room, none in a full list; a waiting frame and none; a
notice with the desk link ready for it, no notice, the link DOWN, and a frame waiting. -/
theorem witness_LinkFramesInAndOut :
    let s := day.modLink .desk fun u => { u with sendList := [.status []], gap := some 21 }
    let f := day.modLink .desk fun u => { u with sendList := List.replicate 16 (.signal (.withdraw 0)) }
    let n : State := { day with mgmt := { day.mgmt with notices := [.supply .full] } }
    (∃ c d e : Instr, c = .statusReceived .desk ∧ d = .signalDisregarded .desk ∧ e = .manageEmptyBody .desk) ∧
      (s.link .desk).gap = some 21 ∧ (day.link .desk).gap ≠ some 21 ∧
      (s.link .desk).sendList.any Frame.isStatus = true ∧ (s.link .desk).sendList = Frame.status [] :: [] ∧
      (day.link .desk).sendList = [] ∧ (day.link .desk).sendList.any Frame.isStatus = false ∧
      (f.link .desk).sendList.any Frame.isStatus = false ∧ (f.link .desk).sendList.length = 16 ∧
      n.mgmt.notices = Notice.supply .full :: [] ∧ (n.link .desk).up = true ∧ (n.link .desk).sendList = [] ∧
      day.mgmt.notices = [] ∧ (State.reset.link .desk).up = false ∧
      ((n.refuse 0x11 .noCall).link .desk).sendList ≠ [] :=
  ⟨⟨_, _, _, rfl, rfl, rfl⟩, by decide +kernel⟩

/-- DOWN, UP with the timer running and UP with it just started again, with a ringing call and none; at the desk a
queued call, calls on the lines and another call. -/
theorem witness_LinkGoesDown :
    let again := talking.modLink (.entrance 0) fun u => { u with liveness := some 3000 }
    (State.reset.link (.entrance 0)).up = false ∧ (State.reset.link .desk).up = false ∧
      (again.link (.entrance 0)).liveness = some 3000 ∧ (talking.link (.entrance 0)).up = true ∧
      (talking.link (.entrance 0)).liveness ≠ some 3000 ∧ talking.originCall (.entrance 0) = some 0 ∧
      (talking.call? 0).map (·.state) = some .talk ∧ (queued.link .desk).up = true ∧
      (queued.link .desk).liveness ≠ some 3000 ∧ (0 : CallId) ∈ queued.desk.queue ∧
      (queued.call? 0).map (fun x => (x.state, x.parties)) = some (.waiting, []) ∧ (0 : CallId) ∈ deskTalk.desk.lineCalls ∧
      (deskTalk.link .desk).up = true ∧ (0 : CallId) ∉ deskTalk.desk.queue ∧ (0 : CallId) ∉ talking.desk.lineCalls ∧
      (∀ r : Riser, (talking.arb.risers[r]).wait = []) := by decide +kernel

/-- Each verdict of checks 3 to 8: the class off, the floor, no such apartment, the target's feed off, its handsets
not free with no step in its chain and with one to another apartment, privacy with a step to the desk, and a call that
asks for its slot; then a slot to grant, a riser short with room in its list, and a queue limit of 0; a class with
PREEMPT whose victim has a CONNECTED party, and one whose victim has none. -/
theorem witness_PanelCallTakesRecordAndRings :
    let x := fun s : State => s.newCall .visitor (.entrance 0) (.code 101)
    let busy := (day.putLine (hA 0) .offhook).putLine (hA 1) .offhook
    let alone := busy.putEntry 0 (some (flat 101 0 [0, 1] []))
    let barred := day.putEntry 0 (some { flat 101 0 [0, 1] [.desk] with hasPrivacy := true })
    let noWait := (shortA day).putClass 0 { ClassParams.defaults[0] with queue := 0 }
    let z := fun s : State => s.newCall .visitor (.entrance 1) (.code 103)
    ([day, without 0 day, floored day, busy, alone, barred, shorted, shortA day, noWait].all fun s =>
      s.supply.mode.isSome && s.originCall (.entrance 0) == none && s.freeRecord == some 0 && inOrder s) = true ∧
      ([preempts 0 talking, preempts 0 ringing].all fun s => s.supply.mode.isSome &&
        s.originCall (.entrance 1) == none && s.freeRecord == some 1 && inOrder s && s.entryOfCode 103 == some 2 &&
        decide (s.ringable 2 ≠ []) && s.feedOn 0 && !s.hasRoom 0 && (s.arb.risers[(0 : Riser)]).wait.isEmpty &&
        victimFor (z s) [0] 0 s == some (0, 0) && (z s).params.queue == 60 && decide (s.ctl.floor < (z s).params.base) &&
        (s.call? 0).map (fun y => (y.waitKind.isNone, y.slots)) == some (true, [(0, 0)]) &&
        (s.arb.risers[(0 : Riser)]).held == s.arb.usable) = true ∧
      ((talking.call? 0).map Call.parties, (ringing.call? 0).map Call.parties) = (some [hA 0], some []) ∧
      (talking.lineState (hA 0) = .connected ∧ talking.reachable (hA 0) = true) ∧
      (∀ k : Slot, ((ringing.arb.risers[(0 : Riser)]).cells[k]).reserved = none) ∧
      (x (without 0 day)).params.base = 0 ∧ (x (floored day)).params.base ≠ 0 ∧
      (x (floored day)).params.base ≤ (floored day).ctl.floor ∧ day.ctl.floor < (x day).params.base ∧
      day.entryOfCode 104 = none ∧ day.entryOfCode 101 = some 0 ∧
      day.dir.entries[(0 : DirIndex)] = some (flat 101 0 [0, 1] [.apartment 1]) ∧ shorted.feedOn 0 = false ∧
      day.feedOn 0 = true ∧ day.ringable 0 ≠ [] ∧ alone.ringable 0 = [] ∧ busy.ringable 0 = [] ∧
      (x busy).params.forward = true ∧ busy.stepUsable (x busy) (.apartment 1) = true ∧
      (x barred).params.hasPrivacy = true ∧ barred.stepUsable (x barred) .desk = true ∧ needsOf (x day) 0 = [0] ∧
      day.canGrant 0 = true ∧ (shortA day).feedOn 0 = true ∧ (shortA day).hasRoom 0 = false ∧
      ((x day).params.queue, (x noWait).params.queue, (x day).params.preempt) = (60, 0, false) ∧
      (day.arb.risers[(0 : Riser)]).wait.length < 8 := by decide +kernel

/-- For CALL-DESK from E1, KEY DESK and KEY URGENT from lifted A3, and KEY URGENT from A3 on hook, each verdict of
checks 3, 4 and 9: the class off, the floor, the desk closed, its queue full, a queue limit of 0, and a call that joins
the queue. -/
theorem witness_DeskOriginationsQueueOrAreRefused :
    let x := fun (k : CallClass) (o : Origin) (s : State) => s.newCall k o .desk
    let key := fun (k : CallClass) (s : State) => x k (.handset (hA 2)) ((s.endUse 0).nodeReplied (hA 2))
    let crowded := fun s : State => s.setDeskQueue [16, 17, 18, 19, 20, 21, 22, 23]
    let noWait := day.putClass 1 { ClassParams.defaults[1] with queue := 0 }
    (∃ m n : Instr, m = .keyDesk 0 2 ∧ n = .keyUrgent 0 2) ∧
      (([day, without 1 day, floored day, closed day, crowded day, noWait].all fun s => s.supply.mode.isSome &&
        s.originCall (.entrance 1) == none && s.freeRecord == some 0 && s.arb.due.isEmpty) = true ∧
      ([lifted, polls 2 day, without 4 lifted, without 5 lifted, floored lifted, closed lifted, crowded lifted].all fun s =>
        (s.risers[(0 : Riser)]).use == .regularPoll 2 && s.presenceOf (hA 2) == .present && s.supply.mode.isSome &&
          s.originCall (.handset (hA 2)) == none && s.freeRecord == some 0 && s.arb.due.isEmpty) = true ∧
      lifted.lineState (hA 2) = .offhook ∧ (polls 2 day).lineState (hA 2) = .idle ∧
      ([x .panelDesk (.entrance 1) (without 1 day), key .deskIn (without 4 lifted), key .urgent (without 5 lifted)].all
        fun c => c.params.base == 0) = true ∧
      ([x .panelDesk (.entrance 1) (floored day), key .deskIn (floored lifted)].all
        fun c => c.params.base != 0 && decide (c.params.base ≤ 4)) = true ∧
      ([x .panelDesk (.entrance 1) day, key .deskIn lifted, key .urgent lifted].all
        fun c => decide (day.ctl.floor < c.params.base) && c.params.queue != 0) = true ∧
      (floored day).ctl.floor = 4 ∧ lifted.ctl.floor = day.ctl.floor ∧ (closed day).desk.isOpen = false ∧
      (closed lifted).desk.isOpen = false ∧ day.desk.isOpen = true ∧ lifted.desk.isOpen = true ∧
      (day.link .desk).up = true ∧ (lifted.link .desk).up = true ∧ (crowded day).desk.queue.length = 8 ∧
      (x .panelDesk (.entrance 1) noWait).params.queue = 0 ∧ day.desk.queue.length < 8 ∧ lifted.desk.queue.length < 8) :=
  ⟨⟨_, _, rfl, rfl⟩, by decide +kernel⟩

/-- A3 lifted, its bus polling it: its own apartment, one that is not, one on its riser and one on another, each riser
short in turn, and the other verdicts; A4 lifted, its class with PREEMPT, where the victim has a CONNECTED party and
where it has none. -/
theorem witness_DialTakesRecordAndRings :
    let s1 := fun s : State => (s.endUse 0).nodeReplied (hA 2)
    let x := fun s : State => (s1 s).newCall .neighbour (.handset (hA 2)) (.code 102)
    let far := lifted.modSlots 1 fun v => { v with cells := Vector.replicate 4 { holder := some 9, reserved := none } }
    let dark := lifted.modFeed 1 fun f => { f with state := .offHeld .order }
    let z := fun s : State => ((s.endUse 0).nodeReplied (hA 3)).newCall .neighbour (.handset (hA 3)) (.code 103)
    let takes := fun s : State => polls 3 ((preempts 2 s).putLine (hA 3) .offhook)
    ([takes talking, takes ringing].all fun s => (s.risers[(0 : Riser)]).use == .regularPoll 3 &&
      s.presenceOf (hA 3) == .present && s.lineState (hA 3) == .offhook && s.supply.mode.isSome &&
      s.originCall (.handset (hA 3)) == none && s.freeRecord == some 1 && inOrder s && s.entryOfCode 103 == some 2 &&
      s.entryListing (hA 3) == none && decide (s.ringable 2 ≠ []) && s.feedOn 0 && !s.hasRoom 0 &&
      (s.arb.risers[(0 : Riser)]).wait.isEmpty && needsOf (z s) 0 == [0] && victimFor (z s) [0] 0 s == some (0, 0) &&
      (z s).params.queue == 60 && decide (s.ctl.floor < (z s).params.base) &&
      (s.arb.risers[(0 : Riser)]).held == s.arb.usable) = true ∧
    ([lifted, without 2 lifted, floored lifted, far, shortA lifted, dark].all fun s =>
      (s.risers[(0 : Riser)]).use == .regularPoll 2 && s.presenceOf (hA 2) == .present &&
        s.lineState (hA 2) == .offhook && s.supply.mode.isSome && s.originCall (.handset (hA 2)) == none &&
        s.freeRecord == some 0 && inOrder s) = true ∧
      (x (without 2 lifted)).params.base = 0 ∧ (x (floored lifted)).params.base ≤ (floored lifted).ctl.floor ∧
      (x (floored lifted)).params.base ≠ 0 ∧ lifted.ctl.floor < (x lifted).params.base ∧
      (s1 lifted).entryOfCode 104 = none ∧ (s1 lifted).entryOfCode 103 = (s1 lifted).entryListing (hA 2) ∧
      (s1 lifted).entryOfCode 103 = some 2 ∧ (s1 lifted).entryOfCode 102 = some 1 ∧
      lifted.dir.entries[(1 : DirIndex)] = some (flat 102 1 [0] []) ∧ (s1 dark).feedOn 1 = false ∧
      (s1 lifted).ringable 1 ≠ [] ∧ needsOf (x lifted) 1 = [1, 0] ∧ needsOf (x lifted) 0 = [0] ∧
      ([0, 1].all fun r => (s1 lifted).canGrant r) = true ∧
      (needsOf (x far) 1).find? (fun q => !(s1 far).hasRoom q) = some 1 ∧
      (needsOf (x lifted) 1).find? (fun q => !(s1 (shortA lifted)).hasRoom q) = some 0 ∧
      ((x lifted).params.queue, (x lifted).params.preempt) = (30, false) := by decide +kernel

/-- An entrance with a live call, one without, with every record taken; handsets on hook, lifted with and without a
call of theirs, CONNECTED, and with every record taken. -/
theorem witness_OriginationsTurnedAway :
    let own := (polls 2 queuedFlat)
    let taken : State := { lifted with ctl := { lifted.ctl with calls := full.ctl.calls } }
    (∃ m n : Instr, m = .call 0 101 ∧ n = .callDesk 0) ∧
      (talking.supply.mode.isSome = true ∧ talking.arb.due = [] ∧ talking.originCall (.entrance 0) ≠ none ∧
      full.supply.mode.isSome = true ∧ full.arb.due = [] ∧ full.originCall (.entrance 1) = none ∧ full.freeRecord = none ∧
      ([polls 2 day, lifted, own, taken].all fun s => (s.risers[(0 : Riser)]).use == .regularPoll 2 &&
        s.presenceOf (hA 2) == .present && s.arb.due.isEmpty && s.supply.mode.isSome) = true ∧
      (polls 2 day).lineState (hA 2) = .idle ∧ own.lineState (hA 2) = .offhook ∧
      own.originCall (.handset (hA 2)) = some 0 ∧ taken.lineState (hA 2) = .offhook ∧ taken.freeRecord = none ∧
      (polls 0 talking).lineState (hA 0) = .connected) :=
  ⟨⟨_, _, rfl, rfl⟩, by decide +kernel⟩

/-- The desk closed, no mode set, both lines taken, no record; a line FREE with the other FREE and with it ACTIVE; each
verdict, and a riser short; a class with PREEMPT whose victim has a CONNECTED party, and one whose victim has none. -/
theorem witness_DeskCallTakesLineAndRings :
    let x := fun s : State => s.newCall .deskOut (.line 0) (.code 101)
    let dawn : State := { day with supply := { day.supply with mode := none } }
    (closed day).desk.isOpen = false ∧ dawn.desk.isOpen = true ∧ dawn.supply.mode = none ∧ deskHeld.desk.isOpen = true ∧
      deskHeld.supply.mode ≠ none ∧ deskHeld.desk.freeLine = none ∧ full.desk.isOpen = true ∧ full.supply.mode ≠ none ∧
      full.desk.freeLine = some 0 ∧ full.freeRecord = none ∧
      ([day, without 3 day, floored day, shorted, shortA day].all fun s => s.desk.isOpen && s.supply.mode.isSome &&
        s.desk.freeLine == some 0 && s.freeRecord == some 0 && inOrder s) = true ∧
      ([preempts 3 talking, preempts 3 ringing].all fun s => s.desk.isOpen && s.supply.mode.isSome &&
        s.desk.freeLine == some 0 && s.freeRecord == some 1 && inOrder s && s.entryOfCode 103 == some 2 &&
        decide (s.ringable 2 ≠ []) && s.feedOn 0 && !s.hasRoom 0 && (s.arb.risers[(0 : Riser)]).wait.isEmpty &&
        victimFor (x s) [0] 0 s == some (0, 0) && (x s).params.queue == 60 &&
        decide (s.ctl.floor < (x s).params.base)) = true ∧ inOrder deskTalk = true ∧
      deskTalk.desk.freeLine = some 1 ∧ deskTalk.freeRecord = some 1 ∧ deskTalk.desk.lines[otherLine 1] = .active 0 ∧
      (x (without 3 day)).params.base = 0 ∧ (x (floored day)).params.base ≤ (floored day).ctl.floor ∧
      (x (floored day)).params.base ≠ 0 ∧ day.ctl.floor < (x day).params.base ∧ day.entryOfCode 104 = none ∧
      day.entryOfCode 101 = some 0 ∧ day.dir.entries[(0 : DirIndex)] = some (flat 101 0 [0, 1] [.apartment 1]) ∧
      shorted.feedOn 0 = false ∧ day.feedOn 0 = true ∧ day.ringable 0 ≠ [] ∧ needsOf (x day) 0 = [0] ∧
      day.canGrant 0 = true ∧ (shortA day).hasRoom 0 = false ∧
      ((x day).params.queue, (x day).params.preempt) = (30, false) := by decide +kernel

/-- No call, a call in ENDING, one ringing and one in TALK; a FREE line, an ACTIVE and a HELD one; records at both ends
of the range, and a number that names none. -/
theorem witness_OrderedEndsOfCalls :
    day.originCall (.entrance 0) = none ∧ ending.originCall (.entrance 0) = some 0 ∧ ending.arb.due = [] ∧
      (ending.call? 0).map (·.state) = some .ending ∧ ringing.originCall (.entrance 0) = some 0 ∧
      (ringing.call? 0).map (·.state) = some .ringing ∧ talking.originCall (.entrance 0) = some 0 ∧
      (talking.call? 0).map (·.state) = some .talk ∧ day.desk.lines[(0 : LineNo)] = .free ∧
      deskTalk.desk.lines[(0 : LineNo)] = .active 0 ∧ deskHeld.desk.lines[(0 : LineNo)] = .held 0 ∧
      (deskHeld.call? 0).map (·.state) = some .held ∧ day.sourceAllowed .desk = true ∧ (24 : Byte).toNat = 24 ∧
      (23 : Byte).toNat = (23 : CallId).val ∧ day.call? 23 = none ∧ full.call? 23 = some visitor := by decide +kernel

/-- A3 on hook, A1 ringing, A3 lifted without a call, with one waiting and with one in ENDING, A1 CONNECTED. -/
theorem witness_HookOnEndsItsCall :
    ((polls 2 day).risers[(0 : Riser)]).use = .regularPoll 2 ∧ (polls 2 day).presenceOf (hA 2) ≠ .absent ∧
      day.lineState (hA 2) = .idle ∧ ringing.lineState (hA 0) = .ringing ∧ day.arb.due = [] ∧
      (day.putLine (hA 2) .offhook).lineState (hA 2) = .offhook ∧ day.originCall (.handset (hA 2)) = none ∧
      queuedFlat.lineState (hA 2) = .offhook ∧ queuedFlat.originCall (.handset (hA 2)) = some 0 ∧
      (queuedFlat.call? 0).map (·.state) = some .waiting ∧
      (let s := queuedFlat.modCall 0 fun x => { x with state := .ending }
      s.originCall (.handset (hA 2)) = some 0 ∧ (s.call? 0).map (·.state) = some .ending ∧ s.arb.due = []) ∧
      talking.lineState (hA 0) = .connected ∧
      talking.findCall (fun y => y.connected && y.hasParty (hA 0)) = some 0 := by decide +kernel

/-- A FREE record; TALK, HELD and RINGING; both kinds of wait; talk limits of 20 s and of 19 s. -/
theorem witness_TalkAndQueueLimits :
    day.call? 0 = none ∧ (talking.call? 0).map (fun x => (x.state, x.waitKind)) = some (.talk, none) ∧
      (deskHeld.call? 0).map (fun x => (x.state, x.origin)) = some (.held, .entrance 0) ∧
      (ringing.call? 0).map (·.state) = some .ringing ∧
      (waiting.call? 0).map (fun x => (x.state, x.waitKind)) = some (.waiting, some (.riser 0)) ∧
      (queued.call? 0).map (fun x => (x.state, x.waitKind)) = some (.waiting, some .desk) ∧ talking.arb.due = [] ∧
      ((talking.modCall 0 fun x => { x with params := { x.params with talk := 20 } }).call? 0).map (·.params.talk) =
        some 20 ∧
      ((talking.modCall 0 fun x => { x with params := { x.params with talk := 19 } }).call? 0).map (·.params.talk) =
        some 19 ∧
      ((talking.modCall 0 fun x => { x with origin := .handset (hA 4) }).call? 0).map (fun x => (x.state, x.origin)) =
        some (.talk, .handset (hA 4)) ∧
      ((talking.modCall 0 fun x => { x with origin := .line 0 }).call? 0).map (fun x => (x.state, x.origin)) =
        some (.talk, .line 0) := by decide +kernel

/-- A2 lifted, A1 CONNECTED, A3 on hook and A1 ringing, each polled. -/
theorem witness_HookOffLiftsOrAnswers :
    ((polls 0 ringing).risers[(0 : Riser)]).use = .regularPoll 0 ∧ (polls 0 ringing).presenceOf (hA 0) ≠ .absent ∧
      (polls 0 ringing).arb.due = [] ∧ (polls 0 ringing).lineState (hA 0) = .ringing ∧
      (polls 0 ringing).findCall (fun y => y.ringSet.any fun m => m.handset == hA 0) = some 0 ∧
      ((polls 0 ringing).call? 0).isSome = true ∧ (polls 2 day).lineState (hA 2) = .idle ∧
      (polls 2 (day.putLine (hA 2) .offhook)).lineState (hA 2) = .offhook ∧
      (polls 0 talking).lineState (hA 0) = .connected := by decide +kernel

/-- KEY DOOR on hook, CONNECTED with the release unit IDLE and in DRIVE, and on a call from a line; KEY PRIVACY with an
entry, without one, and RINGING. -/
theorem witness_KeysOfLiftedHandsets :
    let run := (polls 0 talking).modDoor 0 fun d => { d with run := some d.entry.newRun }
    let flatCall := (polls 0 talking).modCall 0 fun x => { x with origin := .line 0 }
    ((polls 0 talking).risers[(0 : Riser)]).use = .regularPoll 0 ∧ (polls 0 talking).presenceOf (hA 0) ≠ .absent ∧
      (polls 0 talking).arb.due = [] ∧ (polls 0 talking).lineState (hA 0) = .connected ∧
      (polls 0 talking).findCall (fun y => y.connected && y.hasParty (hA 0)) = some 0 ∧
      ((polls 0 talking).call? 0).map (·.origin) = some (.entrance 0) ∧ ((polls 0 talking).doors[(0 : Entrance)]).run = none ∧
      (run.doors[(0 : Entrance)]).run ≠ none ∧ (flatCall.call? 0).map (·.origin) = some (.line 0) ∧
      flatCall.findCall (fun y => y.connected && y.hasParty (hA 0)) = some 0 ∧ (polls 2 day).lineState (hA 2) = .idle ∧
      (polls 2 day).entryListing (hA 2) = some 2 ∧ day.dir.entries[(2 : DirIndex)] = some (flat 103 0 [2] []) ∧
      day.entryListing (hA 5) = none ∧ (polls 0 ringing).lineState (hA 0) = .ringing := by decide +kernel

/-- Each refusal of DESK-ANSWER, with 24 and 254 as numbers that name no record; a call from an entrance, and one from
a handset with its slot granted, short with room in the list, and short with the list full, with a queue limit of 0
and with its feed off; the other line ACTIVE. -/
theorem witness_DeskAnswerJudged :
    let short := shortA queuedFlat
    let crowded := short.modSlots 0 fun v => { v with wait := [16, 17, 18, 19, 20, 21, 22, 23] }
    let noWait := short.modCall 0 fun x => { x with params := { x.params with queue := 0 } }
    let off := queuedFlat.modFeed 0 fun f => { f with state := .offRetry }
    let other := queuedFlat.setConsole 1 (.active 9)
    (24 : Byte).toNat = 24 ∧ (24 : Byte) ≠ 0xFF ∧ (254 : Byte) ≠ 0xFF ∧ namedCall 23 = some (some 23) ∧
      namedCall 0xFF = some none ∧ State.reset.desk.isOpen = false ∧ day.desk.isOpen = true ∧
      day.answerTarget none = none ∧ day.answerTarget (some 23) = none ∧ queued.desk.isOpen = true ∧
      queued.answerTarget none = some 0 ∧ queued.answerTarget (some 0) = some 0 ∧
      (deskHeld.setDeskQueue [2]).answerTarget (some 2) ≠ none ∧ (deskHeld.setDeskQueue [2]).desk.freeLine = none ∧
      queued.desk.freeLine = some 0 ∧ queued.arb.due = [] ∧
      (queued.call? 0).map (fun x => (x.state, x.claim)) = some (.waiting, false) ∧
      (queued.call? 0).map (fun x => (x.slots.isEmpty, x.origin)) = some (true, .entrance 0) ∧
      (queuedFlat.call? 0).map (fun x => (x.state, x.claim)) = some (.waiting, false) ∧
      (queuedFlat.call? 0).map (fun x => (x.slots.isEmpty, x.origin)) = some (true, .handset (hA 2)) ∧
      ([queuedFlat, short, crowded, noWait, off, other].all fun s => s.desk.isOpen && s.answerTarget none == some 0 &&
        s.desk.freeLine == some 0 && s.arb.due.isEmpty) = true ∧ other.desk.lines[otherLine 0] = .active 9 ∧
      queuedFlat.canGrant 0 = true ∧ (queuedFlat.arb.risers[(0 : Riser)]).freeSlot = some 0 ∧ short.canGrant 0 = false ∧
      short.feedOn 0 = true ∧ (short.call? 0).map (fun x => (x.params.queue, x.params.preempt)) = some (120, false) ∧
      (short.arb.risers[(0 : Riser)]).wait.length < 8 ∧ (crowded.arb.risers[(0 : Riser)]).wait.length = 8 ∧
      (noWait.call? 0).map (·.params.queue) = some 0 ∧ off.feedOn 0 = false ∧ off.canGrant 0 = false ∧
      (short.call? 0).map (·.answering) = some none ∧ short.lineState (hA 2) ≠ .connected := by decide +kernel

/-- An URGENT call from A3 with riser A's one usable slot held: by a call in ENDING, by one with no party, and by one
with a CONNECTED party that can be reached. -/
theorem witness_PreemptingClaimTakesVictimSlot :
    ([urgentWaits ending, urgentWaits ringing, urgentWaits talking].all fun s => s.desk.isOpen &&
      s.answerTarget none == some 1 && s.desk.freeLine == some 0 && s.arb.due.isEmpty && s.feedOn 0 && !s.hasRoom 0 &&
      (s.arb.risers[(0 : Riser)]).wait.isEmpty && (s.arb.risers[(0 : Riser)]).order == [0]) = true ∧
      namedCall 0xFF = some none ∧
      ((urgentWaits ringing).call? 1).map (fun x => (x.state, x.claim)) = some (.waiting, false) ∧
      ((urgentWaits ringing).call? 1).map (fun x => (x.slots.isEmpty, x.origin)) = some (true, .handset (hA 2)) ∧
      ((urgentWaits ringing).call? 1).map (fun x => (x.params.base, x.params.queue, x.params.preempt)) =
        some (7, 120, true) ∧
      ((urgentWaits ringing).arb.risers[(0 : Riser)]).held + 1 - (urgentWaits ringing).arb.usable = 1 ∧
      (urgentWaits ending).returning 0 = 1 ∧ (urgentWaits ringing).returning 0 = 0 ∧
      (urgentWaits ringing).victimIn 0 7 [0] = some (0, 0) ∧
      ((urgentWaits ringing).call? 0).map (fun y => (y.parties, y.slots, y.consoleLine)) = some ([], [(0, 0)], none) ∧
      ((urgentWaits ringing).arb.risers[(0 : Riser)]).held = 1 ∧
      (∀ q : Slot, (((urgentWaits ringing).arb.risers[(0 : Riser)]).cells[q]).reserved = none) ∧
      (urgentWaits talking).returning 0 = 0 ∧ (urgentWaits talking).victimIn 0 7 [0] = some (0, 0) ∧
      ((urgentWaits talking).call? 0).map (fun y => (y.parties, y.ringSet.isEmpty)) = some ([hA 0], true) ∧
      (urgentWaits talking).lineState (hA 0) = .connected ∧ (urgentWaits talking).reachable (hA 0) = true := by
  decide +kernel

/-- Numbers 0 and 3 name no line; a FREE line, a HELD one and an ACTIVE one. -/
theorem witness_DeskHoldBreaksConnection :
    (0 : Byte) ≠ 1 ∧ (0 : Byte) ≠ 2 ∧ (3 : Byte) ≠ 1 ∧ (3 : Byte) ≠ 2 ∧ (2 : Byte).toNat = (1 : LineNo).val + 1 ∧
      (1 : Byte).toNat = (0 : LineNo).val + 1 ∧ (day.desk.lines[(0 : LineNo)]).isActive = false ∧
      (deskHeld.desk.lines[(0 : LineNo)]).isActive = false ∧ deskTalk.desk.lines[(0 : LineNo)] = .active 0 := by
  decide +kernel

/-- Numbers 0 and 3 name no line; a FREE and an ACTIVE line; a HELD one with the other ACTIVE, its call from an
entrance, and from a handset with its slot. -/
theorem witness_DeskResumeRemakesConnection :
    let flatHeld := (deskHeld.modCall 0 fun x => { x with origin := .handset (hA 2), slots := [(0, 0)] }).modSlots 0
      fun v => { v with cells := put v.cells 0 { holder := some 0, reserved := none }, order := [0] }
    (0 : Byte) ≠ 1 ∧ (0 : Byte) ≠ 2 ∧ (3 : Byte) ≠ 1 ∧ (3 : Byte) ≠ 2 ∧ (1 : Byte).toNat = (0 : LineNo).val + 1 ∧
      day.desk.lines[(0 : LineNo)] = .free ∧ (deskTalk.desk.lines[(0 : LineNo)]).isActive = true ∧
      deskHeld.desk.lines[(0 : LineNo)] = .held 0 ∧ deskHeld.desk.lines[otherLine 0] = .active 1 ∧
      (deskHeld.call? 0).map (fun x => (x.state, x.origin)) = some (.held, .entrance 0) ∧
      (deskHeld.call? 1).map (·.state) = some .talk ∧ deskHeld.arb.cross.length < 12 ∧
      flatHeld.desk.lines[(0 : LineNo)] = .held 0 ∧
      (flatHeld.call? 0).map (fun x => (x.state, x.origin, x.slotOn 0)) = some (.held, .handset (hA 2), some 0) ∧
      ((flatHeld.arb.risers[(0 : Riser)]).cells[(0 : Slot)]).holder = some 0 := by decide +kernel

/-- Entrance bytes at both ends; a unit in IDLE with a call on a line and without one, in DELAY and in DRIVE. -/
theorem witness_ReleaseRunsFromRequestToIdle :
    let run := fun b => day.modDoor 0 fun d => { d with run := some { drive := b, delay := 5, width := 30, ms := 500 } }
    (6 : Byte).toNat = 6 ∧ (5 : Byte).toNat = (5 : Entrance).val ∧ (0 : Byte).toNat = (0 : Entrance).val ∧
      day.sourceAllowed .desk = true ∧ (day.doors[(5 : Entrance)]).run = none ∧ day.lineCallFrom 0 = none ∧
      deskTalk.lineCallFrom 0 = some 0 ∧ (deskTalk.doors[(0 : Entrance)]).run = none ∧
      (∀ b : Bool, ((run b).doors[(0 : Entrance)]).run = some { drive := b, delay := 5, width := 30, ms := 500 }) := by
  decide +kernel

/-- The two commands that close the desk, with the flag clear and set, and a queued call. -/
theorem witness_DeskOpensAndCloses :
    (∃ (s : State) (l : Link) (m : Instr) (answer : State → State), m = .deskClose ∧ l = .desk ∧ answer = id ∧
      s.desk.isOpen = true) ∧
    (∃ tag : Byte, Instr.manageDeskClose .desk tag = .manageDeskClose .desk 0 ∧ day.sourceAllowed .desk = true) ∧
    State.reset.desk.isOpen = false ∧ State.reset.arb.due = [] ∧ (0 : CallId) ∈ queued.desk.queue ∧
    (queued.call? 0).map (fun x => (x.state, x.parties)) = some (.waiting, []) ∧ NoWaiters queued :=
  ⟨⟨day, _, _, _, rfl, rfl, rfl, rfl⟩, ⟨0, rfl, rfl⟩, rfl, rfl, by decide +kernel, by decide +kernel, by
    unfold NoWaiters; decide +kernel⟩

/-- A closed window, SERVICE-WINDOW of both lengths from an open one, tables 0 and 8, an unknown code and riser 4; 0,
1, 60 and 61 minutes; entrances 5 and 6. -/
theorem witness_RequestsTurnedAwayMaskAndWindows :
    (∃ which minutes : Byte,
      Instr.serviceWindow (.entrance 0) 7 0 60 = .serviceWindow (.entrance 0) 7 which minutes) ∧
    requester (.save (.entrance 0) 7) = some (.entrance 0, 7) ∧ day.sourceAllowed (.entrance 0) = false ∧
      requester (.serviceWindow (.entrance 0) 7 0 60) = some (.entrance 0, 7) ∧ day.sourceAllowed .desk = true ∧
      requester (.manageUnknownRequest (.entrance 0) 7 0x0C false) = some (.entrance 0, 7) ∧
      (day.putWindow 0 (some 1)).sourceAllowed (.entrance 0) = true ∧ (0x42 : Byte) ≠ 0x0C ∧ tableKnown 0 = false ∧
      tableKnown 8 = false ∧ (4 : Byte).toNat = 4 ∧ (6 : Byte).toNat = 6 ∧ (5 : Byte).toNat = (5 : Entrance).val ∧
      (1 : Byte).toNat = 1 ∧ (60 : Byte).toNat = 60 ∧ 60 < (61 : Byte).toNat := ⟨⟨_, _, rfl⟩, by decide +kernel⟩

/-- Indexes at the ends of each table's range, and just past them; records 23 and 24; each section of QUERY-STATUS, 0
and 5 for none; riser 3 and 4, entrance 5 and 6. -/
theorem witness_ReadsAndQueriesAnswer :
    day.sourceAllowed .desk = true ∧ (249 : Byte).toNat = (249 : DirIndex).val ∧ (250 : Byte).toNat = 250 ∧
      (3 : Byte).toNat = (hA 0).riser.val + 3 ∧ (60 : Byte).toNat = (59 : Node).val + 1 ∧ (61 : Byte).toNat = 61 ∧
      (5 : Byte).toNat = (5 : Fin 6).val ∧ (6 : Byte).toNat = 6 ∧ (3 : Byte).toNat = (3 : Fin 4).val ∧
      (4 : Byte).toNat = 4 ∧ (1 : Byte) ≠ 0 ∧ (23 : Byte).toNat = (23 : CallId).val ∧ (24 : Byte).toNat = 24 ∧
      (3 : Byte).toNat = (3 : Riser).val ∧ (5 : Byte).toNat = 5 ∧ (5 : Byte).toNat = (5 : Entrance).val := by
  decide +kernel

/-- Conditions 0 and 7 name none, entrance 6 and riser 4 no instance; clear, latched, and latched with its cause. -/
theorem witness_ClearConditionJudgesCause :
    let s := (shorted.modFeed 3 fun f => { f with state := .offHeld .fault }).setCondition true (.feedHeld 3)
    day.sourceAllowed .desk = true ∧ (7 : Byte).toNat = 7 ∧ (6 : Byte).toNat = 6 ∧ (4 : Byte).toNat = 4 ∧
      (3 : Byte).toNat = (Condition.feedHeld 3).code ∧ (3 : Byte).toNat = (Condition.feedHeld 3).instanceCode ∧
      day.mgmt.conditions.latched (.feedHeld 3) = false ∧ s.mgmt.conditions.latched (.feedHeld 3) = true ∧
      (s.feeds[(3 : Riser)]).state = .offHeld .fault ∧
      (day.setCondition true (.feedHeld 3)).mgmt.conditions.latched (.feedHeld 3) = true ∧
      (day.feeds[(3 : Riser)]).state ≠ .offHeld .fault ∧ Condition.urgentUnanswered.code = 6 := by decide +kernel


/-- Entries 249 and 250; values that are well formed, clash with another entry, and move a used one of a live call. -/
theorem witness_DirectoryTableWritten :
    let w : DirectoryWrite :=
      { used := 1, code := 104, riser := 1, nodes := [5], steps := [255], privacy := 0, label := [65] }
    day.sourceAllowed .desk = true ∧ day.saving = false ∧
      ({ day with store := { day.store with phase := .erasing } } : State).saving = true ∧
      (249 : Byte).toNat = (249 : DirIndex).val ∧ (250 : Byte).toNat = 250 ∧
      DirectoryWrite.apartment 249 { w with code := 0 } = none ∧ (DirectoryWrite.apartment 249 w).isSome = true ∧
      (DirectoryWrite.apartment 249 { w with code := 9999 }).isSome = true ∧
      day.dir.entries[(249 : DirIndex)] = none ∧
      DirectoryWrite.apartment 249 { w with code := 102 } =
        some { code := 102, riser := 1, nodes := [4], chain := [.desk], hasPrivacy := false, label := [65] } ∧
      day.dir.entries[(1 : DirIndex)] = some (flat 102 1 [0] []) ∧
      talking.dir.entries[(0 : DirIndex)] = some (flat 101 0 [0, 1] [.apartment 1]) ∧
      (talking.call? 0).map (·.target) = some (.apartment 0) := by decide +kernel

/-- Addresses 0.1 and 3.60 and the two beside them; a handset that is enrolled and free, one that is not free, one not
enrolled on a riser with its feed on and one with it off. -/
theorem witness_HandsetTableWritten :
    (3 : Byte).toNat = (3 : Riser).val ∧ (60 : Byte).toNat = (59 : Node).val + 1 ∧ (1 : Byte).toNat = (0 : Node).val + 1 ∧
      (61 : Byte).toNat = 61 ∧ (day.handsetEntry (hA 5)).enrolled = true ∧ day.isFree (hA 5) = true ∧
      talking.isFree (hA 0) = false ∧ (talking.handsetEntry (hA 0)).enrolled = true ∧
      (day.risers[(0 : Riser)]).survey = none ∧ day.arb.due = [] ∧ day.feedOn 0 = true ∧
      (State.reset.handsetEntry (hA 5)).enrolled = false ∧ State.reset.feedOn 0 = false ∧
      ((day.putHandset (hA 5) .default).handsetEntry (hA 5)).enrolled = false ∧
      (day.risers[(0 : Riser)]).control = [] ∧ (2 : Byte).toNat = 2 ∧ (0 : Byte).toNat ≤ 1 := by decide +kernel

/-- The last entry of each table and the number past it; operands at and past their bounds; a profile whose cycle is 1
unit, one of 2 units, and one whose on1 is 0. -/
theorem witness_ClassProfileAndDoorTablesWritten :
    day.sourceAllowed .desk = true ∧ day.saving = false ∧ (5 : Byte).toNat = (5 : Fin 6).val ∧ (6 : Byte).toNat = 6 ∧
      (3 : Byte).toNat = (3 : Fin 4).val ∧ (4 : Byte).toNat = 4 ∧ (7 : Byte).toNat = 7 ∧ (8 : Byte).toNat = 8 ∧
      (let p : Profile := { on1 := 1, off1 := 0, on2 := 0, off2 := 0 }
      p.on1 + p.off1 + p.on2 + p.off2 < 2) ∧
      (let p : Profile := { on1 := 1, off1 := 0, on2 := 0, off2 := 1 }
      p.on1 ≠ 0 ∧ 2 ≤ p.on1 + p.off1 + p.on2 + p.off2) ∧ min 40 (255 : Byte).toNat = 40 ∧ min 40 (0 : Byte).toNat = 0 ∧
      (2 : Byte).toNat = 2 ∧ (1 : Byte).toNat = 1 := by decide +kernel

/-- Riser 3 and number 4; enabled kept, set and cleared. -/
theorem witness_RiserTableWritten :
    let off := day.modFeed 3 fun f => { f with entry := { f.entry with enabled := false }, state := .offHeld .order }
    day.sourceAllowed .desk = true ∧ day.saving = false ∧ (3 : Byte).toNat = (3 : Riser).val ∧ (4 : Byte).toNat = 4 ∧
      (2 : Byte).toNat = 2 ∧ (day.feeds[(3 : Riser)]).entry.enabled = true ∧
      (off.feeds[(3 : Riser)]).entry.enabled = false := by decide +kernel

/-- Each mode, and none. -/
theorem witness_SupplyRecordWritten :
    day.sourceAllowed .desk = true ∧ day.saving = false ∧ day.supply.mode = some .full ∧
      ({ day with supply := { day.supply with mode := some .reserve } } : State).supply.mode = some .reserve ∧
      ({ day with supply := { day.supply with mode := some .depleted } } : State).supply.mode = some .depleted ∧
      State.reset.supply.mode = none ∧ (1 : Byte) ≠ 0 := by decide +kernel

/-- Riser 3 and number 4; values 0, 1 and 2; every feed state; a riser not enabled; a queued call from a handset of the
riser, which is concerned by it. -/
theorem witness_RiserFeedSwitches :
    let start := State.reset
    let held := day.modFeed 0 fun f => { f with state := .offHeld .fault }
    let order := day.modFeed 0 fun f => { f with state := .offHeld .order }
    let plain := day.modFeed 0 fun f => { f with entry := { f.entry with enabled := false } }
    day.sourceAllowed .desk = true ∧ (3 : Byte).toNat = (3 : Riser).val ∧ (4 : Byte).toNat = 4 ∧ (2 : Byte).toNat = 2 ∧
      (plain.feeds[(0 : Riser)]).entry.enabled = false ∧ day.feedOn 0 = true ∧
      (day.feeds[(0 : Riser)]).entry.enabled = true ∧ shorted.feedOn 0 = false ∧
      (shorted.feeds[(0 : Riser)]).entry.enabled = true ∧ (shorted.feeds[(0 : Riser)]).state = .offRetry ∧
      shorted.arb.due = [] ∧ (start.feeds[(0 : Riser)]).state = .offHeld .start ∧ start.sourceAllowed .desk = true ∧
      (held.feeds[(0 : Riser)]).state = .offHeld .fault ∧ (order.feeds[(0 : Riser)]).state = .offHeld .order ∧
      queuedFlat.concerned 0 0 = true ∧ (queuedFlat.call? 0).map (fun x => (x.state, x.parties)) = some (.waiting, []) := by
  decide +kernel

/-- Codes at 5960 and 6000 mV, at and below the sag threshold of 20000 mV, and 1000 mV above it; codes at 898 and 900
mA; settling and settled; the third and the fourth short; a queued call that the riser concerns; each timer running
and stopped. -/
theorem witness_FeedConversionsAndTimers :
    let sagging := day.modFeed 0 fun f => { f with state := .onSag }
    let settling := day.modFeed 0 fun f => { f with settle := some 100 }
    let third := day.modFeed 0 fun f => { f with retries := 3 }
    shorted.feedOn 0 = false ∧ (settling.feeds[(0 : Riser)]).settle ≠ none ∧ (day.feeds[(0 : Riser)]).settle = none ∧
      (day.meas.voltage[(0 : Riser)]).seed = true ∧ (day.feeds[(0 : Riser)]).state = .onNormal ∧
      (sagging.feeds[(0 : Riser)]).state = .onSag ∧ (sagging.feeds[(0 : Riser)]).settle = none ∧ day.feedOn 0 = true ∧
      ((day.feeds[(0 : Riser)]).entry.sag, (day.feeds[(0 : Riser)]).entry.short) = (20000, 900) ∧
      (149 : BitVec 10).toNat * 40 < 6000 ∧ 6000 ≤ (150 : BitVec 10).toNat * 40 ∧
      (499 : BitVec 10).toNat * 40 < 20000 ∧ 20000 ≤ (500 : BitVec 10).toNat * 40 ∧
      (524 : BitVec 10).toNat * 40 < 21000 ∧ 21000 ≤ (525 : BitVec 10).toNat * 40 ∧ (449 : BitVec 10).toNat * 2 < 900 ∧
      900 ≤ (450 : BitVec 10).toNat * 2 ∧ (day.feeds[(0 : Riser)]).retries < 3 ∧
      (day.feeds[(0 : Riser)]).stable ≠ none ∧ (shorted.feeds[(0 : Riser)]).stable = none ∧
      (shorted.feeds[(0 : Riser)]).state = .offRetry ∧ (third.feeds[(0 : Riser)]).retries = 3 ∧ queuedFlat.feedOn 0 = true ∧
      queuedFlat.concerned 0 0 = true ∧
      (queuedFlat.call? 0).map (fun x => (x.state, x.parties)) = some (.waiting, []) := by decide +kernel

/-- Riser 3 and number 4; a survey running, none with the feed off and none with it on; an address left and none left.
-/
theorem witness_RiserSurveyStartsOrEnds :
    let part := day.putNode (hA 59) .absent 0
    let runs := part.modRiser 0 fun u => { u with survey := some { next := 59, replied := [] } }
    day.sourceAllowed .desk = true ∧ day.arb.due = [] ∧ (3 : Byte).toNat = (3 : Riser).val ∧ (4 : Byte).toNat = 4 ∧
      (runs.risers[(0 : Riser)]).survey ≠ none ∧ (shorted.risers[(0 : Riser)]).survey = none ∧
      shorted.feedOn 0 = false ∧ (day.risers[(0 : Riser)]).survey = none ∧ day.feedOn 0 = true ∧
      (∀ n : Node, (day.risers[(0 : Riser)]).presence[n] ≠ .absent) ∧
      (part.risers[(0 : Riser)]).presence[(59 : Node)] = .absent ∧ part.feedOn 0 = true := by decide +kernel

/-- No probe under way; a probe with the last address left to probe, and one with none left. -/
theorem witness_SurveyListsItsReplies :
    let probed := (day.putNode (hA 59) .absent 0).modRiser 0
      fun u => { u with survey := some { next := 59, replied := [] }, use := .probe 10 }
    let past := probed.modRiser 0 fun u => { u with survey := some { next := 60, replied := [10] } }
    (∀ n : Node, (day.risers[(0 : Riser)]).use ≠ .probe n) ∧ (probed.risers[(0 : Riser)]).use = .probe 10 ∧
      (probed.risers[(0 : Riser)]).survey = some { next := 59, replied := [] } ∧ 59 ≤ (59 : Node).val ∧
      (probed.risers[(0 : Riser)]).presence[(59 : Node)] = .absent ∧ probed.arb.due = [] ∧
      (past.risers[(0 : Riser)]).use = .probe 10 ∧ (past.risers[(0 : Riser)]).survey = some { next := 60, replied := [10] } ∧
      ∀ q : Node, ¬ 60 ≤ q.val := by decide +kernel

/-- A pause with no pointer, with the pointer below an enrolled address and with it at the highest; a PRESENT and a LOST
node polled, the reply of another with the missed limit of 3 near and not, and the three uses without a window. -/
theorem witness_RegularPollsAndReplies :
    let pause := fun p => day.modRiser 0 fun u => { u with use := .pause, pointer := p }
    let twice := polls 2 (day.putNode (hA 2) .present 2)
    shorted.feedOn 0 = false ∧ (day.risers[(0 : Riser)]).use ≠ .pause ∧
      (∀ p : Option Node, p ∈ [none, some 0, some 59] → ((pause p).risers[(0 : Riser)]).use = .pause ∧
        (pause p).feedOn 0 = true ∧ ((pause p).risers[(0 : Riser)]).pointer = p ∧
        ((pause p).risers[(0 : Riser)]).presence[(0 : Node)] ≠ .absent ∧
        ((pause p).risers[(0 : Riser)]).presence[(1 : Node)] ≠ .absent) ∧
      (∀ z : Node, ¬ z < 0) ∧ (0 : Node) < 1 ∧ (∀ z : Node, 0 < z → ¬ z < 1) ∧ (∀ z : Node, ¬ 59 < z) ∧
      day.arb.due = [] ∧ (shorted.risers[(0 : Riser)]).use = .silent ∧ (day.risers[(0 : Riser)]).use = .idle ∧
      ((pause none).risers[(0 : Riser)]).use = .pause ∧ ((polls 2 day).risers[(0 : Riser)]).use = .regularPoll 2 ∧
      (polls 2 day).presenceOf (hA 2) = .present ∧ (polls 2 (day.putNode (hA 2) .lost 3)).presenceOf (hA 2) = .lost ∧
      ((polls 2 day).risers[(0 : Riser)]).missed[(2 : Node)] + 1 < ((polls 2 day).feeds[(0 : Riser)]).entry.missed ∧
      (twice.feeds[(0 : Riser)]).entry.missed ≤ (twice.risers[(0 : Riser)]).missed[(2 : Node)] + 1 ∧
      twice.presenceOf (hA 2) = .present ∧ (3 : Node) ≠ (hA 2).node := by decide +kernel

/-- The bus of riser A free with its 2 ms over, and freed by A3's reply at their end; then a command, an indication,
an attention poll of A4 after A2, a probe of the one unenrolled address, a pause, and the regular poll of A1 after
A60. A bus with a millisecond left of its use, with two and within the CLEAR of all nodes; a reply within the 2 ms. -/
theorem witness_BusChoosesNextUse :
    let on := fun f : RiserControl → RiserControl => (day.modRiser 0 f).modRiser 0 fun u => { u with use := .regularPoll 2 }
    let free := fun s : State => s.modRiser 0 fun u => { u with use := .idle, useMs := 1 }
    let taken := (free day).modRiser 0 fun u => { u with useMs := 2 }
    let clears := (free day).modRiser 0 fun u => { u with allClearMs := 2 }
    let survey : Survey := { next := 5, replied := [] }
    let gap := fun u : RiserControl => { u with presence := put u.presence 9 .absent, survey := some survey }
    let command := on fun u => { u with control := [.slot 2 0] }
    let tone := on fun u => { u with indications := [{ node := 2, content := .tone .wait }] }
    let attend := on fun u => { u with lastPoll := .regular, attention := [1, 3], attentionPos := some 1 }
    let probe := on fun u => { gap u with lastPoll := .regular }
    let pause := on fun u => { u with pause := 100, lastPoll := .extra }
    let regular := on fun u => { u with pointer := some 59 }
    (([command, tone, attend, probe, pause, regular].all fun s => s.arb.due.isEmpty &&
      (s.risers[(0 : Riser)]).use == .regularPoll 2 && s.presenceOf (hA 2) == .present && s.feedOn 0 &&
      (s.risers[(0 : Riser)]).allClearMs == 0 && (s.risers[(0 : Riser)]).useMs == 0 && (free s).feedOn 0 &&
      ((free s).risers[(0 : Riser)]).use == .idle && decide (((free s).risers[(0 : Riser)]).useMs ≤ 1) &&
      decide (((free s).risers[(0 : Riser)]).allClearMs ≤ 1) && (free s).pending.isEmpty) = true ∧
      ([taken, clears].all fun s => (s.risers[(0 : Riser)]).use == .idle && s.feedOn 0 && s.pending.isEmpty &&
        decide (2 ≤ (s.risers[(0 : Riser)]).useMs ∨ 2 ≤ (s.risers[(0 : Riser)]).allClearMs)) = true ∧
      ((polls 2 day).risers[(0 : Riser)]).use = .regularPoll 2 ∧ ((polls 2 day).risers[(0 : Riser)]).useMs ≠ 0 ∧
      (polls 2 day).presenceOf (hA 2) = .present ∧ (polls 2 day).feedOn 0 = true ∧ (polls 2 day).arb.due = [] ∧
      ((polls 2 day).risers[(0 : Riser)]).allClearMs = 0 ∧ (command.risers[(0 : Riser)]).control ≠ [] ∧
      (tone.risers[(0 : Riser)]).control = [] ∧ (tone.risers[(0 : Riser)]).indications ≠ [] ∧
      (attend.risers[(0 : Riser)]).lastPoll = .regular ∧ (attend.risers[(0 : Riser)]).turn = .attention ∧
      (attend.risers[(0 : Riser)]).attention ≠ [] ∧ (probe.risers[(0 : Riser)]).lastPoll = .regular ∧
      (probe.risers[(0 : Riser)]).survey = some survey ∧ (probe.risers[(0 : Riser)]).attention = [] ∧
      (pause.risers[(0 : Riser)]).lastPoll = .extra ∧ (pause.risers[(0 : Riser)]).pause = 100 ∧
      (regular.risers[(0 : Riser)]).lastPoll = .extra ∧ (regular.risers[(0 : Riser)]).pause = 0) ∧
      (attend.risers[(0 : Riser)]).Attends 3 ∧ (probe.risers[(0 : Riser)]).Probes survey 9 ∧
      (regular.risers[(0 : Riser)]).Follows 0 :=
  ⟨by decide +kernel, by unfold RiserControl.Attends; decide +kernel, by unfold RiserControl.Probes; decide +kernel,
    by unfold RiserControl.Follows; decide +kernel⟩

/-- A LOST node; a PRESENT one with a queued tone to take the place of, with the first entry in service, with room, and
with 24 entries of another node. -/
theorem witness_RiserQueuesTakeMessages :
    let tone : IndicationEntry := { node := 2, content := .tone .wait }
    let waits := day.modRiser 0 fun u => { u with indications := [tone, tone], indicationTry := 1 }
    let packed := day.modRiser 0 fun u => { u with indications := List.replicate 24 { tone with node := 7 } }
    shorted.presenceOf (hA 2) ≠ .present ∧ shorted.feedOn 0 = false ∧
      ([day, waits, packed].all fun s => s.presenceOf (hA 2) == .present && s.feedOn 0) = true ∧
      (waits.risers[(0 : Riser)]).indicationTry = 1 ∧ (waits.risers[(0 : Riser)]).indications[1]? = some tone ∧
      (Indication.tone .busy).category = tone.content.category ∧ (day.risers[(0 : Riser)]).indications = [] ∧
      (packed.risers[(0 : Riser)]).indications.length = 24 ∧
      (∀ e ∈ (packed.risers[(0 : Riser)]).indications, e.node ≠ (hA 2).node) := by decide +kernel

/-- A LOST node, a PRESENT node below its missed limit of 3 and one that reaches it, with no call that loses with it. -/
theorem witness_MissedPollCounts :
    let twice := polls 2 (day.putNode (hA 2) .present 2)
    (∀ n : Node, (day.risers[(0 : Riser)]).use ≠ .regularPoll n ∧ (day.risers[(0 : Riser)]).use ≠ .attentionPoll n) ∧
      day.arb.due = [] ∧ ((polls 2 day).risers[(0 : Riser)]).use = .regularPoll 2 ∧
      (polls 2 (day.putNode (hA 2) .lost 3)).presenceOf (hA 2) = .lost ∧ (polls 2 day).presenceOf (hA 2) = .present ∧
      ((polls 2 day).risers[(0 : Riser)]).missed[(2 : Node)] + 1 < ((polls 2 day).feeds[(0 : Riser)]).entry.missed ∧
      (twice.feeds[(0 : Riser)]).entry.missed ≤ (twice.risers[(0 : Riser)]).missed[(2 : Node)] + 1 ∧
      twice.presenceOf (hA 2) = .present ∧ (twice.risers[(0 : Riser)]).use = .regularPoll 2 ∧
      clearsFor 2 (twice.risers[(0 : Riser)]).control = [] ∧ (∀ c : CallId, twice.call? c = none) ∧
      twice.mgmt.notices.length < 16 ∧ twice.mgmt.mask.getLsbD 2 = true := by decide +kernel

/-- A1 reaching the missed limit of 3 as party of a call in TALK, in the ring set of a call with A2 and alone, the class
not forwarding; KEY URGENT from A1 in the same two ring sets. -/
theorem witness_HandsetLeavesItsCall :
    let near := fun s : State => polls 0 (s.putNode (hA 0) .present 2)
    let alone := ringing.modCall 0 fun x =>
      { x with params := { x.params with forward := false }, ringSet := x.ringSet.take 1 }
    ([near talking, near ringing, near alone].all fun s => inCast s &&
      (s.risers[(0 : Riser)]).use == .regularPoll 0 && s.presenceOf (hA 0) == .present && s.supply.mode.isSome &&
      decide ((s.feeds[(0 : Riser)]).entry.missed ≤ (s.risers[(0 : Riser)]).missed[(0 : Node)] + 1) &&
      (clearsFor 0 (s.risers[(0 : Riser)]).control).isEmpty && s.originCall (.handset (hA 0)) == none &&
      s.freeRecord == some 1) = true ∧
      (near talking).findCall (fun y => y.losesWith (hA 0)) = some 0 ∧
      (∀ v : CallId, ((near talking).call? v).all fun y => y.ringSet.isEmpty) ∧
      (near ringing).findCall (fun y => y.ringSet.any fun m => m.handset == hA 0) = some 0 ∧
      (near alone).findCall (fun y => y.ringSet.any fun m => m.handset == hA 0) = some 0 ∧
      (∀ v : CallId, ((near ringing).call? v).all fun y => y.losesWith (hA 0) == false) ∧
      (near ringing).lineState (hA 0) = .ringing ∧ (near alone).lineState (hA 0) = .ringing ∧
      ((near ringing).call? 0).map (fun x => x.ringSet.map Member.handset) = some [hA 0, hA 1] ∧
      ((near alone).call? 0).map (fun x => x.ringSet.map Member.handset) = some [hA 0] ∧
      ((near alone).call? 0).map (fun x => (x.state, x.params.forward, x.parties)) = some (.ringing, false, []) ∧
      (∀ r : Riser, ((near alone).arb.risers[r]).wait = []) ∧
      (near alone).mgmt.mask.getLsbD 0 = true ∧ (near alone).mgmt.notices.length ≤ 13 := by decide +kernel

/-- KEY URGENT from A1, alone in the ring set of a call whose class forwards, with no step left, the desk, an apartment
on another riser and one on the same riser as the next step. -/
theorem witness_HandsetLeavesItsCall_forwards :
    let left := ringing.modCall 0 fun x => { x with ringSet := x.ringSet.take 1 }
    let steps : List (Option Machine.Step) := [none, some .desk, some (.apartment 1), some (.apartment 2)]
    (steps.all fun o =>
      let a := flat 101 0 [0, 1] o.toList
      let s := polls 0 { left with dir := { left.dir with entries := put left.dir.entries 0 (some a) } }
      let p := (((s.endUse 0).nodeReplied (hA 0)).leaveRinging (hA 0)).1.stopRinging 0
      inOrder s && (s.risers[(0 : Riser)]).use == .regularPoll 0 && s.presenceOf (hA 0) == .present &&
        s.lineState (hA 0) == .ringing && s.supply.mode.isSome && s.originCall (.handset (hA 0)) == none &&
        s.freeRecord == some 1 && s.findCall (fun y => y.ringSet.any fun m => m.handset == hA 0) == some 0 &&
        s.dir.entries[(0 : DirIndex)] == some a &&
        (allRisers.all fun r => (s.arb.risers[r]).wait.isEmpty && (s.arb.risers[r]).cells.all fun z => z.reserved == none) &&
        (s.call? 0).any fun x =>
          x.params.forward && x.original == some 0 && x.ringSet.map Member.handset == [hA 0] &&
            x.slots == [(0, 0)] && ((s.arb.risers[(0 : Riser)]).cells[(0 : Slot)]).holder == some 0 &&
            (a.chain.drop x.chainPos).find? (p.stepUsable x) == o &&
            match o with
            | some (.apartment j) => !(p.ringable j).elem (hA 0)
            | _ => true) = true := by decide +kernel

/-- A SLOT, an indication and the last pending CLEAR of a call in ENDING in service, at the first and at the second
attempt, and no window open. -/
theorem witness_MessageInServiceSettles :
    let slot := fun k => day.modRiser 0 fun u => { u with use := .control, control := [.slot 2 0], controlTry := k }
    let clear := fun k => ending.modRiser 0 fun u => { u with controlTry := k }
    let tone := fun k => day.modRiser 0 fun u =>
      { u with use := .indication, indications := [{ node := 2, content := .tone .wait }], indicationTry := k }
    day.arb.due = [] ∧ (day.risers[(0 : Riser)]).use = .idle ∧ (shorted.risers[(0 : Riser)]).use = .silent ∧
      (∀ k : Nat, k ∈ [1, 2] → ((slot k).risers[(0 : Riser)]).use = .control ∧ (slot k).arb.due = [] ∧
        ((slot k).risers[(0 : Riser)]).control = Command.slot (hA 2).node 0 :: [] ∧
        ((slot k).risers[(0 : Riser)]).controlTry = k ∧ (slot k).presenceOf (hA 2) = .present ∧
        ((tone k).risers[(0 : Riser)]).use = .indication ∧ (tone k).presenceOf (hA 2) = .present ∧
        ((tone k).risers[(0 : Riser)]).indications = { node := 2, content := .tone .wait } :: [] ∧
        ((tone k).risers[(0 : Riser)]).indicationTry = k ∧ (tone k).arb.due = [] ∧
        ((clear k).risers[(0 : Riser)]).use = .control ∧ ((clear k).risers[(0 : Riser)]).controlTry = k ∧
        ((clear k).risers[(0 : Riser)]).control = Command.clear (hA 0).node 0 :: [] ∧ (clear k).arb.due = [] ∧
        (clear k).presenceOf (hA 0) = .present ∧
        ((clear k).call? 0).map (fun x => (x.state, x.pendingClears)) = some (.ending, [hA 0])) ∧
      ((slot 2).risers[(0 : Riser)]).missed[(2 : Node)] + 1 < ((slot 2).feeds[(0 : Riser)]).entry.missed ∧
      ((clear 2).risers[(0 : Riser)]).missed[(0 : Node)] + 1 < ((clear 2).feeds[(0 : Riser)]).entry.missed ∧
      ending.mgmt.notices.length < 16 ∧ ending.mgmt.mask.getLsbD 0 = true := by decide +kernel

/-- The last CLEAR of C0, whose slot 0 of riser A brings the riser to its usable count of 1: reserved for a claim, and
unreserved with a claim, a visitor and a neighbour of riser B waiting for it; riser B with a slot, short with room in
its list, and short with eight calls there; a call in riser C's list that needs a slot of both. -/
theorem witness_ReturnedSlotServesWaiters :
    let base : State := { ending with arb := { ending.arb with usable := 1 } }
    let put1 := fun (x : Call) (z : Riser) (c : CallId) (s : State) =>
      (s.setCall c (some { x with waitKind := some (.riser z) })).modSlots z fun v => { v with wait := [c] }
    let claim := put1 { day.newCall .deskIn (.handset (hA 2)) .desk with claim := true, line := some 0 } 0 1 base
    let kept := claim.modSlots 0 fun v => { v with cells := put v.cells 0 { holder := some 0, reserved := some 1 } }
    let plain := put1 { visitor with target := .apartment 2, original := some 2 } 0 1 base
    let far := put1 { day.newCall .neighbour (.handset { riser := 1, node := 5 }) (.apartment 2) with
      original := some 2 } 0 1 base
    let short := far.modSlots 1 fun v => { v with cells := put v.cells 0 { holder := some 9, reserved := none } }
    let crowded := short.modSlots 1 fun v => { v with wait := [16, 17, 18, 19, 20, 21, 22, 23] }
    let third := put1 { day.newCall .neighbour (.handset { riser := 2, node := 5 }) (.apartment 2) with
      original := some 2 } 2 2 crowded
    ([claim, kept, plain, far, short, crowded, third].all fun s => s.arb.due.isEmpty &&
      (s.risers[(0 : Riser)]).use == .control && (s.risers[(0 : Riser)]).control == [.clear 0 0] &&
      s.presenceOf (hA 0) == .present && s.feedOn 0 && (s.arb.risers[(0 : Riser)]).held == 1 && s.arb.usable == 1 &&
      (s.call? 0).map (fun y => (y.state, y.pendingClears, y.slots)) == some (.ending, [hA 0], [(0, 0)]) &&
      ((s.arb.risers[(0 : Riser)]).cells[(0 : Slot)]).holder == some 0 && (s.arb.risers[(0 : Riser)]).wait == [1] &&
      (s.call? 1).map (·.state) == some .waiting && bestOf s.levelOf [1] == some 1 &&
      allSlots.find? (fun q : Slot => q == 0 || ((s.arb.risers[(0 : Riser)]).cells[q]).holder.isNone) == some 0) = true ∧
      (∀ q : Slot, q ≠ 0 → ((ending.arb.risers[(0 : Riser)]).cells[q]).reserved = none) ∧
      ((kept.arb.risers[(0 : Riser)]).cells[(0 : Slot)]).reserved = some 1 ∧
      ((plain.arb.risers[(0 : Riser)]).cells[(0 : Slot)]).reserved = none ∧
      ((claim.call? 1).map (·.claim), (plain.call? 1).map (fun x => (x.claim, x.target))) =
        (some true, some (false, .apartment 2)) ∧ (plain.setCall 0 none).ringable 2 ≠ [] ∧
      claim.otherNeeded 0 1 = none ∧ plain.otherNeeded 0 1 = none ∧ far.otherNeeded 0 1 = some 1 ∧
      far.canGrant 1 = true ∧ (far.arb.risers[(1 : Riser)]).freeSlot = some 0 ∧ short.hasRoom 1 = false ∧
      (short.arb.risers[(1 : Riser)]).wait.length < 8 ∧ (crowded.arb.risers[(1 : Riser)]).wait.length = 8 ∧
      (∀ z : Riser, z ≠ 0 → short.wantsRiser 0 z = false ∧ crowded.wantsRiser 0 z = false) ∧
      (third.arb.risers[(2 : Riser)]).wait = [2] ∧ third.otherNeeded 2 2 = some 0 ∧ third.canGrant 2 = true ∧
      (third.arb.risers[(2 : Riser)]).freeSlot = some 0 ∧
      (third.call? 2).map (fun w => (w.target, w.claim)) = some (.apartment 2, false) ∧
      (∀ y : Riser, y ≠ 0 → y ≠ 2 → third.wantsRiser 0 y = false) := by decide +kernel

/-- A FREE record, a call in TALK, and a ringing call: on1 with off1 to follow, on1 of profile 1 with off2 next, off2
with cycles left, and off2 of the last cycle of a class that does not forward, with no handset left to clear. -/
theorem witness_CadenceSegmentEnds :
    let last := day.setCall 0 (some { day.newCall .neighbour (.line 0) (.apartment 0) with
      state := .ringing, segment := some (.off2, 1000), cycles := 7 })
    let next := fun (s : State) (k : Fin 4) =>
      Segment.on1.following.find? fun z => (s.dir.profiles[k]).units z != 0
    ringing.arb.due = [] ∧ ringing.call? 1 = none ∧ (talking.call? 0).map (·.state) = some .talk ∧
      (ringing.call? 0).map (fun x => (x.state, x.segment)) = some (.ringing, some (.on1, 400)) ∧
      (ringing.call? 0).map (fun x => (x.params.cycles, x.params.profile)) = some (10, 0) ∧
      next ringing 0 = some .off1 ∧ next ringing 1 = some .off2 ∧
      ((ringing.modCall 0 fun x => { x with segment := some (.off2, 1000), cycles := 8 }).call? 0).map
        (fun x => (x.segment, x.cycles + 1)) = some (some (.off2, 1000), 9) ∧ Segment.off2.following = [] ∧
      (last.call? 0).map (fun x => (x.state, x.segment)) = some (.ringing, some (.off2, 1000)) ∧
      (last.call? 0).map (fun x => (x.cycles + 1, x.params.cycles)) = some (8, 8) ∧
      (last.call? 0).map (fun x => (x.params.forward, x.parties)) = some (false, []) ∧
      last.mgmt.mask.getLsbD 0 = true ∧ last.mgmt.notices.length ≤ 14 := by decide +kernel

/-- C0's last ring cycle, its chain leading to apartment 102 on another riser, to 103 over the slot it holds, to the
desk, and nowhere. -/
theorem witness_RingTimeoutForwards :
    let last := fun chain => (ringing.modCall 0 fun x => { x with segment := some (.off2, 0), cycles := 9 }).putEntry 0
      (some (flat 101 0 [0, 1] chain))
    let step := fun chain => ((last chain).call? 0).bind fun x => chain.find? (((last chain).stopRinging 0).stepUsable x)
    ([[.apartment 1], [.apartment 2], [.desk], []].all fun chain =>
      inOrder (last chain) && (last chain).dir.entries[(0 : DirIndex)] == some (flat 101 0 [0, 1] chain) &&
      ((last chain).call? 0).map (fun x => (x.state, x.segment, x.chainPos)) == some (.ringing, some (.off2, 0), 0) &&
      ((last chain).call? 0).map (fun x => (x.cycles + 1, x.params.cycles, x.params.forward)) == some (10, 10, true) &&
      ((last chain).call? 0).map (fun x => (x.original, x.slots)) == some (some 0, [(0, 0)]) &&
      step chain == chain.head?) = true ∧
      (∀ r : Riser, (ringing.arb.risers[r]).wait = [] ∧ ∀ k : Slot, ((ringing.arb.risers[r]).cells[k]).reserved = none) ∧
      ((ringing.arb.risers[(0 : Riser)]).cells[(0 : Slot)]).holder = some 0 ∧ Segment.off2.following = [] ∧
      (visitor.slotOn 0, visitor.slotOn 1, needsOf visitor 0, needsOf visitor 1) = (none, none, [0], [1]) ∧
      ((ringing.call? 0).bind fun x => x.slotOn 0) = some 0 := by decide +kernel

/-- Off1 before on2 with both members silent, their 60 mA each within a budget of 120 mA and, at 100 mA, one of them
past it; off2 and on1 before on1 of the next cycle; a CALL of E1 to A3; riser A going to ON-SAG with both sounding. -/
theorem witness_RingAdmissionAndCutback :
    let silent := (ringing.modCall 0 fun x => { x with
      segment := some (.off1, 200), ringSet := x.ringSet.map fun m => { m with sounding := false, load := 0 } }).setSounding
        0 []
    let tight := silent.modFeed 0 fun f => { f with entry := { f.entry with budget := 100 } }
    silent.arb.due = [] ∧ (silent.call? 0).map (fun x => (x.state, x.segment)) = some (.ringing, some (.off1, 200)) ∧
      Segment.off1.isOn = false ∧ Segment.on2.isOn = true ∧
      Segment.off1.following.find? (fun z => (silent.dir.profiles[(0 : Fin 4)]).units z != 0) = some .on2 ∧
      (silent.soundSum 0, silent.beff 0, tight.beff 0) = (0, 120, 100) ∧
      ([.off2, .on1].all fun g : Segment =>
        let s := (ringing.modCall 0 fun x => { x with segment := some (g, 50) }).putProfile 0
          { on1 := 8, off1 := 0, on2 := 0, off2 := 0 }
        (s.call? 0).map (fun x => (x.segment, decide (x.cycles + 1 < x.params.cycles))) == some (some (g, 50), true) &&
          g.following.find? (fun z => (s.dir.profiles[(0 : Fin 4)]).units z != 0) == none) = true ∧
      Segment.on1.isOn = true ∧ inOrder ringing = true ∧ ringing.supply.mode = some .full ∧
      ringing.originCall (.entrance 1) = none ∧ ringing.freeRecord = some 1 ∧ ringing.entryOfCode 103 = some 2 ∧
      ringing.dir.entries[(2 : DirIndex)] = some (flat 103 0 [2] []) ∧ ringing.ringable 2 = [hA 2] ∧
      ringing.canGrant 0 = true ∧
      ringing.ctl.floor < (ringing.newCall .visitor (.entrance 1) (.code 103)).params.base ∧
      ([hA 0, hA 1, hA 2].all fun h => ringing.reachable h) = true ∧
      (ringing.risers[(0 : Riser)]).indications = [] ∧ [hA 0, hA 1].Nodup ∧ (silent.handsetEntry (hA 1)).load = 60 ∧
      (ringing.feeds[(0 : Riser)]).state = .onNormal ∧ (ringing.feeds[(0 : Riser)]).settle = none ∧ ringing.arb.due = [] ∧
      (ringing.ring.sounding[(0 : Riser)].map Sounding.node).Nodup ∧ (ringing.meas.voltage[(0 : Riser)]).seed = true ∧
      6000 ≤ (499 : BitVec 10).toNat * 40 ∧ (499 : BitVec 10).toNat * 40 < (ringing.feeds[(0 : Riser)]).entry.sag ∧
      (ringing.call? 0).isSome = true := by decide +kernel

/-- A shut and an open contact; a last sample that agrees and one that does not; a door OPEN-AUTH. -/
theorem witness_DoorContactAndHeldTimer :
    let half := day.modDoor 0 fun d => { d with lastSample := true }
    let opened := half.modDoor 0 fun d => { d with contact := true, door := .openAuth, held := some 60000 }
    let closing := opened.modDoor 0 fun d => { d with lastSample := false }
    ((true == (day.doors[(0 : Entrance)]).entry.openWhenHigh) = true) ∧ (day.doors[(0 : Entrance)]).lastSample = false ∧
      (day.doors[(0 : Entrance)]).contact = false ∧ (half.doors[(0 : Entrance)]).lastSample = true ∧
      (half.doors[(0 : Entrance)]).contact = false ∧ (closing.doors[(0 : Entrance)]).lastSample = false ∧
      (closing.doors[(0 : Entrance)]).contact = true ∧ (opened.doors[(0 : Entrance)]).door = .openAuth ∧
      (day.doors[(0 : Entrance)]).door ≠ .openAuth ∧ day.mgmt.notices.length < 15 ∧ day.mgmt.mask.getLsbD 1 = true ∧
      day.mgmt.mask.getLsbD 7 = true ∧ day.mgmt.conditions.latched (.doorHeld 0) = false := by decide +kernel

/-- Each mode and none; a conversion at the depleted threshold of 10800 mV, below it, and 300 mV above it; samples
that agree with the two before and ones that do not; a reading missing, and both read with mains, without mains at the
threshold and below it. -/
theorem witness_SupplyModeFollowsMainsAndBattery :
    let inMode := fun m =>
      ({ day with supply := { day.supply with mode := m }, meas := { day.meas with battery := Measurement.reset.battery } } :
        State)
    let absent := fun m =>
      ({ day with supply := { day.supply with samples := [false, false], mains := some false, mode := m } } : State)
    let first := fun b c => ({ day with
      supply := { day.supply with mode := none, mains := some b }, meas := { day.meas with battery.filtered := c } } : State)
    (∃ m n : Instr, m = .mainsSenseSample true ∧ n = .debouncedMainsChange true) ∧
    ((∀ m : Option Mode, m ∈ [none, some .full, some .reserve, some .depleted] → (inMode m).supply.mode = m ∧
      (inMode m).meas.battery.seed = true ∧ (inMode m).supply.record.depleted = 10800 ∧ (absent m).supply.mode = m ∧
      (absent m).supply.mains ≠ some true ∧ (absent m).supply.samples ≠ [true, true]) ∧
      10800 ≤ (540 : BitVec 10).toNat * 20 ∧ (539 : BitVec 10).toNat * 20 < 10800 ∧
      11100 ≤ (555 : BitVec 10).toNat * 20 ∧ (554 : BitVec 10).toNat * 20 < 11100 ∧ day.meas.battery.seed = false ∧
      day.mgmt.notices.length < 16 ∧ day.mgmt.mask.getLsbD 4 = true ∧ day.arb.due = [] ∧
      day.supply.samples = [true, true] ∧ day.supply.mains = some true ∧ day.supply.mode = some .full ∧
      ({ day with supply := { day.supply with samples := [false, false] } } : State).supply.samples = [false, false] ∧
      day.supply.mains ≠ some false ∧ State.reset.supply.mains = none ∧ State.reset.meas.battery.seed = true ∧
      (first true 0).supply.mode = none ∧ (first true 0).meas.battery.seed = false ∧
      (first true 0).supply.mains = some true ∧ (first false 540).supply.mains = some false ∧
      (first false 540).supply.record.depleted ≤ (first false 540).meas.battery.filtered * 20 ∧
      (first false 539).meas.battery.filtered * 20 < (first false 539).supply.record.depleted) :=
  ⟨⟨_, _, rfl, rfl⟩, by decide +kernel⟩

/-- A store VALID with its pages, one NOT VALID, and one VALID whose pages are erased. -/
theorem witness_ColdStartLoadsStoreOrDefaults :
    ∃ (s t u : State) (p : Settings), s.store.valid = true ∧ s.store.pages = some p ∧ p.deskOpen = true ∧
      t.store.valid = false ∧ u.store.valid = true ∧ u.store.pages = none :=
  ⟨{ day with store := { Store.reset with valid := true, pages := some (day.captured
      { hasPrivacy := day.dir.privacyFlags, mask := day.mgmt.mask, deskOpen := true }) } }, State.reset,
    { day with store := { Store.reset with valid := true } }, _, rfl, rfl, rfl, rfl, rfl, rfl⟩

/-- No sequence, a sequence without a mode, and one at each riser; the first riser not enabled; B passed over between
A and C; C found switched on; none left to take a turn. -/
theorem witness_StartupSwitchesOnInTurn :
    let turn := fun r => ({ State.reset with
      startup := some { next := r, ms := 0 }, supply := { Supply.reset with mode := some .full } } : State)
    let no := fun (r : Riser) (s : State) => s.modFeed r fun f => { f with entry := { f.entry with enabled := false } }
    let turns := fun (s : State) (q : Riser) =>
      (s.feeds[q]).entry.enabled && decide ((s.feeds[q]).state ≠ .offHeld .order)
    let found := (turn 2).modFeed 2 fun f => { f with state := .onNormal }
    day.startup = none ∧ State.reset.supply.mode = none ∧ State.reset.startup ≠ none ∧
      (∀ r : Riser, (turn r).startup = some { next := r, ms := 0 } ∧ (turn r).supply.mode ≠ none ∧
        turns (turn r) r = true ∧ ((turn r).feeds[r]).state = .offHeld .start) ∧
      turns (no 0 (turn 0)) 0 = false ∧ turns (no 0 (turn 0)) 1 = true ∧ turns (no 1 (turn 0)) 0 = true ∧
      turns (no 1 (turn 0)) 1 = false ∧ turns (no 1 (turn 0)) 2 = true ∧ turns found 2 = true ∧
      (found.feeds[(2 : Riser)]).state = .onNormal ∧ turns found 3 = true ∧ (∀ z : Riser, ¬ 3 < z) ∧
      turns (no 3 (turn 3)) 3 = false := by decide +kernel

/-- The desk and an entrance with its window open; a reply list with room and a full one. -/
theorem witness_RestartClearsCallsAndKeepsTables :
    let packed := day.modLink .desk fun u => { u with sendList := List.replicate 16 (.signal (.withdraw 0)) }
    ringing.sourceAllowed .desk = true ∧ (ringing.putWindow 0 (some 1)).sourceAllowed (.entrance 0) = true ∧
      ringing.mgmt.mask.getLsbD 8 = true ∧ ringing.mgmt.notices.length < 16 ∧ Link.entrance 0 ≠ .desk ∧
      ((ringing.frameIn .desk).link .desk).sendList.length < 16 ∧ packed.sourceAllowed .desk = true ∧
      ((packed.frameIn .desk).link .desk).sendList.length = 16 ∧ ringing.feedOn 0 = true ∧
      (∀ n : Node, (ringing.risers[(0 : Riser)]).presence[n] ≠ .absent) := by decide +kernel

/-- Each phase, with 0, 14 and 15 pages written. -/
theorem witness_SaveWritesStoreByPhases :
    let kept : Snapshot := { hasPrivacy := day.dir.privacyFlags, mask := day.mgmt.mask, deskOpen := true }
    let inPhase := fun p => ({ day with store := { day.store with phase := p, snapshot := some kept } } : State)
    day.sourceAllowed .desk = true ∧ day.store.phase = .idle ∧ (inPhase .erasing).store.phase = .erasing ∧
      (∀ n : Nat, n ∈ [0, 14, 15] → (inPhase (.writing n)).store.phase = .writing n) ∧
      (inPhase (.writing 15)).store.snapshot = some kept ∧ (inPhase .marking).store.phase = .marking := by decide +kernel

end Sys2Proof.Tests
end

section
/-! PROOFS. The console lines named on the desk link, and DESK-HOLD (R97, R105). -/

namespace Sys2Proof.Proofs

open Sys2Proof Sys2Proof.Machine

/-! ### A line's number on the wire -/

theorem lineOf_eq_none {n : Byte} (h1 : n ≠ 1) (h2 : n ≠ 2) : lineOf n = none := by
  rw [lineOf, if_neg h1, if_neg h2]

theorem lineOf_eq_some_iff (n : Byte) (l : LineNo) : lineOf n = some l ↔ n.toNat = l.val + 1 := by
  by_cases h1 : n = 1
  · subst h1; revert l; decide
  · by_cases h2 : n = 2
    · subst h2; revert l; decide
    · have n1 : n.toNat ≠ 1 := fun h => h1 (BitVec.eq_of_toNat_eq h)
      have n2 : n.toNat ≠ 2 := fun h => h2 (BitVec.eq_of_toNat_eq h)
      rw [lineOf_eq_none h1 h2]
      exact ⟨fun h => absurd h (Option.some_ne_none l).symm, fun h => by omega⟩

/-! ### A valid frame on a link -/

@[simp] theorem frameIn_arb (s : State) (k : Link) : (s.frameIn k).arb = s.arb := State.modLink_arb s k _

@[simp] theorem frameIn_desk (s : State) (k : Link) : (s.frameIn k).desk = s.desk := State.modLink_desk s k _

/-! ### An ACTIVE line becomes HELD (R97) -/

theorem holdLine_of_active {s : State} {l : LineNo} {c : CallId} (h : s.desk.lines[l] = .active c) :
    s.holdLine l = ((s.setConsole l (.held c)).setCross
      (s.arb.cross.filter fun k => k.a != .line l && k.b != .line l)).modCall c
        fun x => if x.state = .talk then { x with state := .held } else x := by
  simp only [State.holdLine, h]
  rfl

/-! ### DESK-HOLD, by the line it names (R105) -/

theorem exec_deskHold_of_no_line {n : Byte} (hn : lineOf n = none) (s : State) :
    exec (.deskHold n) s = .next ((s.frameIn .desk).refuse deskHoldCode .badLine) := by
  change execDeskHold n s = _
  simp only [execDeskHold, hn]

theorem exec_deskHold_of_line {n : Byte} {l : LineNo} (hn : lineOf n = some l) (s : State) :
    exec (.deskHold n) s =
      if s.desk.lines[l].isActive then .next ((s.frameIn .desk).holdLine l)
      else .next ((s.frameIn .desk).refuse deskHoldCode .badLine) := by
  change execDeskHold n s = _
  simp only [execDeskHold, hn, frameIn_desk]

/-- Settles O29: by the line the number names, and by whether that line is ACTIVE. -/
theorem deskHoldBreaksConnection : Obligations.DeskHoldBreaksConnection := by
  intro n s
  refine ⟨fun h1 h2 => ?noLine, fun l hl => ?line⟩
  case noLine => exact exec_deskHold_of_no_line (lineOf_eq_none h1 h2) s
  case line =>
    rw [exec_deskHold_of_line ((lineOf_eq_some_iff n l).2 hl)]
    refine ⟨fun hidle => ?notActive, fun c hact => ?active⟩
    case notActive =>
      rw [hidle]
      exact if_neg Bool.false_ne_true
    case active =>
      have hline : (s.frameIn .desk).desk.lines[l] = .active c := by rw [frameIn_desk, hact]
      rw [hact, holdLine_of_active hline, frameIn_arb]
      exact if_pos rfl

end Sys2Proof.Proofs
end

section
/-! PROOFS. The survey of a riser: whether an address is left to probe, its end, and RISER-SURVEY (R127 to R129). -/

namespace Sys2Proof.Proofs

open Sys2Proof Sys2Proof.Machine

/-! ### A request that the gate lets through (R174, R176) -/

@[simp] theorem frameIn_risers (s : State) (k : Link) : (s.frameIn k).risers = s.risers := State.modLink_risers s k _

@[simp] theorem frameIn_feedOn (s : State) (k : Link) (r : Riser) : (s.frameIn k).feedOn r = s.feedOn r := rfl

@[simp] theorem frameIn_sourceAllowed (s : State) (k l : Link) :
    (s.frameIn k).sourceAllowed l = s.sourceAllowed l := by
  cases l <;> rfl

theorem finOf_of_toNat_eq {n : Nat} {b : Byte} {i : Fin n} (h : b.toNat = i.val) : finOf n b = some i := by
  rw [finOf, dif_pos (h ▸ i.isLt)]
  exact congrArg some (Fin.ext h)

theorem manage_of_sourceAllowed {s : State} {src : Link} (h : s.sourceAllowed src = true) (tag req : Byte)
    (owner : State → State × Answer) :
    s.manage src tag req owner =
      (owner (s.frameIn src)).1.reply src tag req (owner (s.frameIn src)).2 := by
  rw [State.manage, frameIn_sourceAllowed, if_pos h]

/-! ### What is left to probe, and the end of a survey (R128, R129) -/

theorem mem_allNodes : ∀ n : Node, n ∈ allNodes := by decide

theorem isEnrolled_eq_false_iff {u : RiserControl} {n : Node} :
    u.isEnrolled n = false ↔ u.presence[n] = .absent := by
  rw [RiserControl.isEnrolled, bne_eq_false_iff_eq]

theorem nextProbe_eq_none_iff {u : RiserControl} {v : Survey} (hv : u.survey = some v) :
    u.nextProbe = none ↔ ∀ n : Node, v.next ≤ n.val → u.presence[n] ≠ .absent := by
  have unfolded : u.nextProbe =
      allNodes.find? fun n => decide (v.next ≤ n.val) && !u.isEnrolled n := by rw [RiserControl.nextProbe, hv]
  rw [unfolded, List.find?_eq_none]
  constructor
  · intro h n hn ha
    exact h n (mem_allNodes n) (by simp [isEnrolled_eq_false_iff.2 ha, hn])
  · intro h n _ hprobed
    obtain ⟨hn, hf⟩ := Bool.and_eq_true_iff.1 hprobed
    exact h n (of_decide_eq_true hn) (isEnrolled_eq_false_iff.1 ((Bool.not_eq_true' _).mp hf))

theorem checkSurvey_of_unenrolled_left {s : State} {r : Riser} {v : Survey} (hv : (s.risers[r]).survey = some v)
    {n : Node} (hn : v.next ≤ n.val) (ha : (s.risers[r]).presence[n] = .absent) : s.checkSurvey r = s := by
  have left : (s.risers[r]).nextProbe ≠ none := fun h => (nextProbe_eq_none_iff hv).1 h n hn ha
  rw [State.checkSurvey, hv]
  exact if_neg fun h => left (Option.isNone_iff_eq_none.1 h)

theorem checkSurvey_of_none_left {s : State} {r : Riser} {v : Survey} (hv : (s.risers[r]).survey = some v)
    (hp : ∀ n : Node, v.next ≤ n.val → (s.risers[r]).presence[n] ≠ .absent) :
    s.checkSurvey r =
      (s.modRiser r fun u => { u with survey := none }).offer (.survey r v.replied false) := by
  rw [State.checkSurvey, hv]
  exact if_pos (Option.isNone_iff_eq_none.2 ((nextProbe_eq_none_iff hv).2 hp))

/-! ### A survey started (R127) -/

/-- The riser's survey set RUNNING from address 1, with an empty list. -/
def beginSurvey (r : Riser) (s : State) : State :=
  s.modRiser r fun u => { u with survey := some { next := 0, replied := [] } }

theorem beginSurvey_survey (r : Riser) (s : State) :
    ((beginSurvey r s).risers[r]).survey = some { next := 0, replied := [] } := by
  rw [beginSurvey, State.modRiser_get, if_pos rfl]

theorem beginSurvey_presence (r : Riser) (s : State) :
    ((beginSurvey r s).risers[r]).presence = (s.risers[r]).presence := by
  rw [beginSurvey, State.modRiser_get, if_pos rfl]

@[simp] theorem beginSurvey_arb (r : Riser) (s : State) : (beginSurvey r s).arb = s.arb := State.modRiser_arb s r _

/-- A survey begun where none ran and taken away again leaves the state as it was. -/
theorem beginSurvey_removed {r : Riser} {s : State} (h : (s.risers[r]).survey = none) :
    (beginSurvey r s).modRiser r (fun u => { u with survey := none }) = s := by
  have back : upd (upd s.risers r fun u => { u with survey := some { next := 0, replied := [] } }) r
      (fun u => { u with survey := none }) = s.risers := by
    rw [upd_upd]
    exact upd_self _ _ _ (by rw [← h])
  exact congrArg (fun us => { s with risers := us }) back

theorem checkSurvey_beginSurvey_of_absent {r : Riser} {s : State} {n : Node}
    (ha : (s.risers[r]).presence[n] = .absent) : (beginSurvey r s).checkSurvey r = beginSurvey r s :=
  checkSurvey_of_unenrolled_left (beginSurvey_survey r s) n.val.zero_le (by rw [beginSurvey_presence, ha])

theorem checkSurvey_beginSurvey_of_all_enrolled {r : Riser} {s : State} (h : (s.risers[r]).survey = none)
    (hp : ∀ n : Node, (s.risers[r]).presence[n] ≠ .absent) :
    (beginSurvey r s).checkSurvey r = s.offer (.survey r [] false) := by
  rw [checkSurvey_of_none_left (beginSurvey_survey r s) fun n _ => by rw [beginSurvey_presence]; exact hp n,
    beginSurvey_removed h]

/-! ### RISER-SURVEY, by the survey and the feed of the riser it names (R127) -/

theorem startSurvey_of_running {r : Riser} {s : State} (h : (s.risers[r]).survey ≠ none) :
    startSurvey r s = (s, { code := .busy }) := by
  rw [startSurvey, if_pos (Option.isSome_iff_ne_none.2 h)]

theorem startSurvey_of_feed_off {r : Riser} {s : State} (h : (s.risers[r]).survey = none)
    (hf : s.feedOn r = false) : startSurvey r s = (s.offer (.survey r [] true), { code := .ok }) := by
  rw [startSurvey, h, hf]
  rfl

theorem startSurvey_of_feed_on {r : Riser} {s : State} (h : (s.risers[r]).survey = none) (hf : s.feedOn r = true) :
    startSurvey r s = (((beginSurvey r s).checkSurvey r).settle [], { code := .ok }) := by
  rw [startSurvey, h, hf]
  rfl

theorem exec_riserSurvey_of_sourceAllowed {src : Link} {b : Byte} {r : Riser} {s : State}
    (ha : s.sourceAllowed src = true) (hb : b.toNat = r.val) (tag : Byte) :
    exec (.riserSurvey src tag b) s =
      .next ((startSurvey r (s.frameIn src)).1.reply src tag 0x0B (startSurvey r (s.frameIn src)).2) := by
  change execRiserSurvey src tag b s = _
  rw [execRiserSurvey, manage_of_sourceAllowed ha, finOf_of_toNat_eq hb]
  rfl

/-- Settles O43: by whether a survey of the riser runs, whether its feed is on, and whether an address is left to
probe. -/
theorem riserSurveyStartsOrEnds : Obligations.RiserSurveyStartsOrEnds := by
  intro src tag b r s ha hdue hb
  have hrun : ((s.frameIn src).risers[r]).survey = (s.risers[r]).survey := by rw [frameIn_risers]
  have hpres : ((s.frameIn src).risers[r]).presence = (s.risers[r]).presence := by rw [frameIn_risers]
  have hdue1 : (s.frameIn src).arb.due = [] := by rw [frameIn_arb, hdue]
  dsimp only
  rw [exec_riserSurvey_of_sourceAllowed ha hb]
  refine ⟨fun hv => ?running, fun hv hf => ?feedOff, fun hv hf => ⟨fun ⟨n, hn⟩ => ?probes, fun hp => ?noneLeft⟩⟩
  case running => rw [startSurvey_of_running (by rwa [hrun])]
  case feedOff => rw [startSurvey_of_feed_off (hrun.trans hv) ((frameIn_feedOn s src r).trans hf)]
  case probes =>
    rw [startSurvey_of_feed_on (hrun.trans hv) ((frameIn_feedOn s src r).trans hf),
      checkSurvey_beginSurvey_of_absent (n := n) (by rw [hpres, hn]),
      settle_idle _ (by rw [beginSurvey_arb, hdue1])]
    rfl
  case noneLeft =>
    rw [startSurvey_of_feed_on (hrun.trans hv) ((frameIn_feedOn s src r).trans hf),
      checkSurvey_beginSurvey_of_all_enrolled (hrun.trans hv) (by rwa [hpres]),
      settle_idle _ (by rw [State.offer_arb, hdue1])]

end Sys2Proof.Proofs
end

section
/-! PROOFS. A condition's name on the wire, its latch, its cause, and CLEAR-CONDITION (R181, R182). -/

namespace Sys2Proof.Proofs

open Sys2Proof Sys2Proof.Machine

/-! ### A condition's code and number read (R182) -/

theorem finOf_of_le {n : Nat} {b : Byte} (h : n ≤ b.toNat) : finOf n b = none := by
  rw [finOf, dif_neg (Nat.not_lt.2 h)]

theorem conditionOf_of_unknown {cond : Byte} (h : cond = 0 ∨ 7 ≤ cond.toNat) (inst : Byte) :
    conditionOf cond inst = .error .badValue := by
  rcases h with rfl | h
  case inl => rfl
  case inr =>
    rw [conditionOf]
    split
    case h_7 => rfl
    all_goals omega

theorem conditionOf_of_out_of_range {cond inst : Byte}
    (h : (cond = 1 ∨ cond = 2) ∧ 6 ≤ inst.toNat ∨ cond = 3 ∧ 4 ≤ inst.toNat) :
    conditionOf cond inst = .error .badIndex := by
  rcases h with ⟨rfl | rfl, hi⟩ | ⟨rfl, hi⟩
  all_goals
    simp only [conditionOf, finOf_of_le hi]
    rfl

theorem conditionOf_of_code {cond inst : Byte} {k : Condition} (hc : cond.toNat = k.code)
    (hi : 4 ≤ k.code ∨ inst.toNat = k.instanceCode) : conditionOf cond inst = .ok k := by
  have named (h : k.code < 4) : inst.toNat = k.instanceCode := hi.resolve_left (Nat.not_le.2 h)
  rw [conditionOf, hc]
  cases k with
  | doorHeld e | doorForced e | feedHeld r =>
    simp only [Condition.code, finOf_of_toNat_eq (named (of_decide_eq_true rfl))]
  | supplyDepleted | storeInvalid | urgentUnanswered => rfl

/-! ### A condition written (R181) -/

theorem conditions_latched_set (c : Conditions) (v : Bool) (k : Condition) : (c.set v k).latched k = v := by
  cases k with
  | doorHeld e | doorForced e | feedHeld r => exact put_get_self _ _ _
  | supplyDepleted | storeInvalid | urgentUnanswered => rfl

theorem conditions_set_set (c : Conditions) (v w : Bool) (k : Condition) : (c.set v k).set w k = c.set w k := by
  cases k with
  | doorHeld e | doorForced e | feedHeld r => simp only [Conditions.set, put_put]
  | supplyDepleted | storeInvalid | urgentUnanswered => rfl

theorem conditions_set_of_latched_eq {c : Conditions} {v : Bool} {k : Condition} (h : c.latched k = v) :
    c.set v k = c := by
  subst h
  cases k with
  | doorHeld e | doorForced e | feedHeld r => simp only [Conditions.set, Conditions.latched, put_self]
  | supplyDepleted | storeInvalid | urgentUnanswered => rfl

theorem setCondition_setCondition (s : State) (v w : Bool) (k : Condition) :
    (s.setCondition v k).setCondition w k = s.setCondition w k := by
  simp only [State.setCondition, conditions_set_set]

theorem setCondition_of_latched_eq {s : State} {v : Bool} {k : Condition}
    (h : s.mgmt.conditions.latched k = v) : s.setCondition v k = s := by
  simp only [State.setCondition, conditions_set_of_latched_eq h]

/-- A latched condition cleared and raised again stays as it was, with one notice more. -/
theorem raise_setCondition_false {s : State} {k : Condition} (h : s.mgmt.conditions.latched k = true) :
    (s.setCondition false k).raise k = s.offer (.condition k) := by
  have clear : ¬ (s.setCondition false k).mgmt.conditions.latched k = true := by
    rw [State.setCondition_mgmt_conditions, conditions_latched_set]
    exact Bool.false_ne_true
  rw [State.raise, if_neg clear, setCondition_setCondition, setCondition_of_latched_eq h]

/-! ### The cause of a condition (R182) -/

theorem causePersists_iff (s : State) (k : Condition) :
    s.causePersists k = true ↔
      (∃ e : Entrance, k = .doorHeld e ∧ (s.doors[e]).door = .openHeld) ∨
      (∃ e : Entrance, k = .doorForced e ∧ (s.doors[e]).door = .openForced ∧ (s.doors[e]).entry.forced = true) ∨
      (∃ r : Riser, k = .feedHeld r ∧ (s.feeds[r]).state = .offHeld .fault) ∨
      k = .supplyDepleted ∧ s.supply.mode = some .depleted ∨ k = .storeInvalid ∧ s.store.valid = false := by
  cases k with
  | doorHeld e | doorForced e | feedHeld r | supplyDepleted | storeInvalid | urgentUnanswered =>
    simp [State.causePersists]

@[simp] theorem frameIn_mgmt (s : State) (l : Link) : (s.frameIn l).mgmt = s.mgmt := State.modLink_mgmt s l _

@[simp] theorem frameIn_causePersists (s : State) (l : Link) (k : Condition) :
    (s.frameIn l).causePersists k = s.causePersists k := rfl

/-! ### A condition cleared, by its latch and its cause (R182) -/

theorem clearInstance_of_clear {s : State} {k : Condition} (h : s.mgmt.conditions.latched k = false) :
    clearInstance k s = (s, { code := .ok }) := by
  rw [clearInstance, h]
  rfl

theorem clearInstance_of_cause_gone {s : State} {k : Condition} (h : s.mgmt.conditions.latched k = true)
    (hp : s.causePersists k = false) : clearInstance k s = (s.setCondition false k, { code := .ok }) := by
  rw [clearInstance, h, hp]
  rfl

theorem clearInstance_of_cause_persists {s : State} {k : Condition} (h : s.mgmt.conditions.latched k = true)
    (hp : s.causePersists k = true) : clearInstance k s = (s.offer (.condition k), { code := .busy }) := by
  rw [← raise_setCondition_false h, clearInstance, h, hp]
  rfl

/-! ### CLEAR-CONDITION, by what its two bytes name (R182) -/

theorem exec_clearCondition_of_error {src : Link} {cond inst : Byte} {s : State} {a : ReplyCode}
    (ha : s.sourceAllowed src = true) (hk : conditionOf cond inst = .error a) (tag : Byte) :
    exec (.clearCondition src tag cond inst) s = .next ((s.frameIn src).reply src tag 0x06 { code := a }) := by
  change execClearCondition src tag cond inst s = _
  rw [execClearCondition, manage_of_sourceAllowed ha, hk]

theorem exec_clearCondition_of_ok {src : Link} {cond inst : Byte} {s : State} {k : Condition}
    (ha : s.sourceAllowed src = true) (hk : conditionOf cond inst = .ok k) (tag : Byte) :
    exec (.clearCondition src tag cond inst) s =
      .next ((clearInstance k (s.frameIn src)).1.reply src tag 0x06 (clearInstance k (s.frameIn src)).2) := by
  change execClearCondition src tag cond inst s = _
  rw [execClearCondition, manage_of_sourceAllowed ha, hk]

/-- Settles O35: by what the two bytes name, and for a condition named by its latch and whether its cause persists. -/
theorem clearConditionJudgesCause : Obligations.ClearConditionJudgesCause := by
  intro src tag cond inst s ha
  refine ⟨fun hc => ?unknown, fun hi => ?outOfRange, fun k hc hi => ?named⟩
  case unknown => exact exec_clearCondition_of_error ha (conditionOf_of_unknown hc inst) tag
  case outOfRange => exact exec_clearCondition_of_error ha (conditionOf_of_out_of_range hi) tag
  case named =>
    have latch : (s.frameIn src).mgmt.conditions.latched k = s.mgmt.conditions.latched k := by rw [frameIn_mgmt]
    have cause : (s.frameIn src).causePersists k = s.causePersists k := frameIn_causePersists s src k
    dsimp only
    rw [exec_clearCondition_of_ok ha (conditionOf_of_code hc hi), ← causePersists_iff]
    refine ⟨fun hl => ?clear, fun hl hp => ?causeGone, fun hl hp => ?causePersists⟩
    case clear => rw [clearInstance_of_clear (latch.trans hl)]
    case causeGone =>
      rw [clearInstance_of_cause_gone (latch.trans hl) (cause.trans (eq_false_of_ne_true hp))]
    case causePersists => rw [clearInstance_of_cause_persists (latch.trans hl) (cause.trans hp)]

end Sys2Proof.Proofs
end
